-- ==== Sys2Proof/Word.lean ====
section
/-! DEFINITION. The widths of the block's values (spec 00_scope R11: every register is 8 bits wide unless a rule says
otherwise, bit 0 is the least significant bit, every value is unsigned). -/

namespace Sys2Proof

/-- One 8-bit register value (R11, R71). -/
abbrev Byte := BitVec 8

/-- One command word, delivered whole on a port (30_encoding R100). -/
abbrev Word := BitVec 16

/-- A mailbox index as CANPAGE.MOBNB, `s` and SLOT hold it: 4 bits, 0..15 (00_scope R8, 10_state R23, R35). -/
abbrev Slot := BitVec 4

end Sys2Proof
end

