-- ==== Sys2Proof/Config.lean ====
section
/-! DEFINITION. What is fixed for the machine (the parameters of 00_scope R8), what the spec leaves open (R9 and the
free choices of R10, R34, R194, R197, R250, R251), and the plain data types those open values range over. Every open
value is an `opaque` constant without a body: no proof can see what it is. -/

namespace Sys2Proof

/-! ## Fixed parameters (R8) -/

/-- SLOT_FIRST (R8): the lowest pool mailbox index. -/
abbrev Config.slotFirst : Slot := 8#4
/-- SLOT_LAST (R8): the highest pool mailbox index. -/
abbrev Config.slotLast : Slot := 14#4
/-- POOL_SIZE and COUNTER_MAX (R8): pool slots, and the largest legal counter value. -/
abbrev Config.poolSize : Byte := 7#8
/-- HDR_LEN (R8): header bytes per frame. -/
abbrev Config.hdrLen : Nat := 4
/-- MAX_PAYLOAD (R8): the largest legal payload length. -/
abbrev Config.maxPayload : Nat := 4
/-- CAN_DATA_MAX (R8): the largest CAN data field in bytes. -/
abbrev Config.canDataMax : Nat := 8
/-- MOB_COUNT (R8): mailboxes in the controller, indices 0..14. -/
abbrev Config.mobCount : Nat := 15

/-! ## Ports and register names -/

/-- The two command ports (30_encoding R100). -/
inductive Port where
  | fg
  | irq
deriving DecidableEq, Repr, Inhabited

/-- The controller registers the block accesses (20_memory R71). -/
inductive RegName where
  | canpage | canstmob | cancdmob | canidt1 | canidt2 | canidt3 | canidt4 | canmsg | canie1
deriving DecidableEq, Repr, Inhabited

/-- The default of REG_ADDR (20_memory R72), given so that a model can be instantiated; no rule depends on it. -/
def RegName.defaultAddr : RegName → Byte
  | .canie1 => 0xDF#8
  | .canpage => 0xED#8
  | .canstmob => 0xEE#8
  | .cancdmob => 0xEF#8
  | .canidt4 => 0xF0#8
  | .canidt3 => 0xF1#8
  | .canidt2 => 0xF2#8
  | .canidt1 => 0xF3#8
  | .canmsg => 0xFA#8

/-! ## The controller's register sets -/

/-- The per-mailbox registers (10_state R33, R36-R39). -/
structure Mailbox where
  /-- CANSTMOB, the status register (R37). -/
  stmob : Byte
  /-- CANCDMOB, the control register (R36). -/
  cdmob : Byte
  /-- CANIDT1 (R38). -/
  idt1 : Byte
  /-- CANIDT2 (R38). -/
  idt2 : Byte
  /-- CANIDT3 (R38). -/
  idt3 : Byte
  /-- CANIDT4 (R38). -/
  idt4 : Byte
  /-- MSG[0..7], the data bytes (R33, R39). -/
  msg : Vector Byte 8
deriving DecidableEq, Repr, Inhabited

/-- A mailbox whose registers all hold zero: what `State.reset` names for R34's unspecified values
(DESIGN CHOICE, unsafe; log 5). -/
def Mailbox.zero : Mailbox := ⟨0#8, 0#8, 0#8, 0#8, 0#8, 0#8, Vector.replicate 8 0#8⟩

/-- The mask and time-stamp registers of 10_state R42, one set per mailbox (PRESUMED from the family, unsafe; log 7). -/
structure MaskSet where
  idm1 : Byte
  idm2 : Byte
  idm3 : Byte
  idm4 : Byte
  stml : Byte
  stmh : Byte
deriving DecidableEq, Repr, Inhabited

/-- The controller's other registers, which the block neither reads nor writes (10_state R42; the names of the timer
registers are PRESUMED from the family; log 7). -/
structure OtherRegs where
  canen1 : Byte
  canen2 : Byte
  cangcon : Byte
  cangsta : Byte
  cangit : Byte
  cangie : Byte
  cansit1 : Byte
  cansit2 : Byte
  canbt1 : Byte
  canbt2 : Byte
  canbt3 : Byte
  cantcon : Byte
  cantiml : Byte
  cantimh : Byte
  canttcl : Byte
  canttch : Byte
  cantec : Byte
  canrec : Byte
  canhpmob : Byte
  masks : Vector MaskSet Config.mobCount
deriving DecidableEq, Repr, Inhabited

/-- The reset values of R42's registers (PRESUMED: the AT90CAN family's, CANHPMOB 0xF0 and the rest 0x00; the masks and
time stamps, which the family leaves undefined, 0: DESIGN CHOICE; both unsafe, log 7). -/
def OtherRegs.familyReset : OtherRegs :=
  { canen1 := 0, canen2 := 0, cangcon := 0, cangsta := 0, cangit := 0, cangie := 0, cansit1 := 0, cansit2 := 0,
    canbt1 := 0, canbt2 := 0, canbt3 := 0, cantcon := 0, cantiml := 0, cantimh := 0, canttcl := 0, canttch := 0,
    cantec := 0, canrec := 0, canhpmob := 0xF0, masks := Vector.replicate 15 ⟨0, 0, 0, 0, 0, 0⟩ }

/-! ## What the outside does -/

/-- What HOST issues at the FG port: a command word (R130), or a write of `gie` (R139, not a command word). -/
inductive HostOp where
  | issue (w : Word)
  | setGie (b : Bool)
deriving DecidableEq, Repr, Inhabited

/-- Whose turn it is, with what that agent does in it (00_scope R10; DESIGN CHOICE: log 2). An agent with no enabled
step in the state holds (R13). -/
inductive Turn where
  /-- HOST issues an operation, or its caller tries the one that waits (R130, R139). -/
  | host (op : HostOp)
  /-- FG runs its next micro-step (R150). -/
  | fg
  /-- The IRQ agent serves the pending slot `q` (R192). -/
  | irq (q : Slot)
  /-- A word is fed to the IRQ port directly (R192, last sentences but one; log 14). -/
  | irqPort (w : Word)
  /-- CTRL transmits slot `q` (R195). -/
  | ctrl (q : Slot)
  /-- The external controller initialisation, step 2 of the boot order (R255; log 20). -/
  | init
  /-- Reset (R250, R251; log 21). -/
  | reset
deriving DecidableEq, Repr, Inhabited

/-- The values that R250 and R251 leave unspecified after a reset. -/
structure ResetDraw where
  slot : Slot
  ty : Byte
  len : BitVec 3
  seq : Byte
  dcnt : Byte
  pay : Vector Byte 4
  tmp : Byte
  mobs : Vector Mailbox Config.mobCount
  other : OtherRegs
deriving DecidableEq, Repr, Inhabited

/-- The values `State.reset` names for R250's and R251's unspecified ones (log 5, 6, 7; unsafe). -/
def ResetDraw.named : ResetDraw :=
  { slot := 0, ty := 0, len := 0, seq := 0, dcnt := 0, pay := Vector.replicate 4 0, tmp := 0,
    mobs := Vector.replicate 15 Mailbox.zero, other := OtherRegs.familyReset }

/-- What the external initialisation leaves in the bits that INIT_CLEAN does not fix (R254: "Every other bit is free"). -/
structure InitDraw where
  canpage : Byte
  canie1 : Byte
  canie2 : Byte
  mobs : Vector Mailbox Config.mobCount
  other : OtherRegs
deriving DecidableEq, Repr, Inhabited

/-! ## Open parameters and free values -/

/-- Everything the spec leaves open, as the argument a model takes (R9), with the model's free choices. -/
structure Params where
  /-- BOOT_CAN_ID (R9). -/
  bootCanId : BitVec 11
  /-- BOARD_ID (R9, 10_state R28). -/
  boardId : Byte
  /-- REG_ADDR (R9, 20_memory R72). -/
  regAddr : RegName → Byte
  /-- FAIR_CTRL (R9, R268). -/
  fairCtrl : Bool
  /-- FAIR_IRQ (R9, R268). -/
  fairIrq : Bool
  /-- The free choice of R10: whose turn comes when the state fixes none, at the n-th draw. -/
  turn : Nat → Turn
  /-- The free values of R250, R251 at the n-th draw. -/
  resetDraw : Nat → ResetDraw
  /-- The free values of R254 at the n-th draw. -/
  initDraw : Nat → InitDraw
deriving Inhabited

/-- BOOT_CAN_ID (R9): the spec gives no value (log 23). -/
opaque Config.bootCanId : BitVec 11
/-- BOARD_ID (R9): the spec gives no value (log 23). -/
opaque Config.boardId : Byte
/-- REG_ADDR (R9, R72): no step reads it (log 23). -/
opaque Config.regAddr : RegName → Byte
/-- FAIR_CTRL (R9, R268; log 23). -/
opaque Config.fairCtrl : Bool
/-- FAIR_IRQ (R9, R268; log 23). -/
opaque Config.fairIrq : Bool
/-- The free schedule (R10, R194, R197, R221; log 2). -/
opaque Config.freeTurn : Nat → Turn
/-- The free values at a reset (R34, R250, R251; log 21). -/
opaque Config.freeAtReset : Nat → ResetDraw
/-- The free values the external initialisation leaves (R254; log 20). -/
opaque Config.freeAtInit : Nat → InitDraw

/-- The machine's parameters: every one of them a constant nothing is known of. -/
def Config.params : Params :=
  { bootCanId := Config.bootCanId, boardId := Config.boardId, regAddr := Config.regAddr,
    fairCtrl := Config.fairCtrl, fairIrq := Config.fairIrq, turn := Config.freeTurn,
    resetDraw := Config.freeAtReset, initDraw := Config.freeAtInit }

end Sys2Proof
end

