-- ==== Sys2Proof/Syntax.lean ====
section
/-! DEFINITION. The commands, one constructor per row of spec/opcode_table.json (30_encoding R109). Operands have the
widths of the fields of R101, so an operand outside its field cannot be written here; the assembler's operands, which
can be out of range, are in WellFormed.lean. -/

namespace Sys2Proof

/-- The five commands (R102, R109). -/
inductive Instr where
  /-- SEND TYPE, LEN: acquire a free mailbox, frame the staged message and arm it (40_commands R135). -/
  | send (ty : BitVec 8) (len : BitVec 3)
  /-- STAGE IDX, BYTE: write one payload staging byte (R132). -/
  | stage (idx : BitVec 2) (byte : BitVec 8)
  /-- SETSEQ BYTE: write the sequence-number staging byte (R133). -/
  | setseq (byte : BitVec 8)
  /-- SETDCNT BYTE: write the data-counter staging byte (R134). -/
  | setdcnt (byte : BitVec 8)
  /-- RECLAIM SLOT: return a completed mailbox to the pool (42_reclaim R190). -/
  | reclaim (slot : BitVec 4)
deriving DecidableEq, Repr, Inhabited

end Sys2Proof
end

