-- ==== Sys2Proof/WellFormed.lean ====
section
/-! DEFINITION. Well-formedness of what a programmer writes: the textual commands of 30_encoding R110 with their
operands as numbers, and the pseudo-instruction SENDMSG of R111. "An operand outside its field's range (type > 255,
len > 7, idx > 3, byte > 255, slot > 15) is an assembly error" (R110). A term of `Instr` has its operands in the fields'
own widths, so every one of them is well formed and encodable. -/

namespace Sys2Proof

/-- One line of the assembler's FG and IRQ commands (R110), with SENDMSG (R111). -/
inductive Asm where
  | send (type len : Nat)
  | stage (idx byte : Nat)
  | setseq (byte : Nat)
  | setdcnt (byte : Nat)
  | reclaim (slot : Nat)
  | sendmsg (type seq dcnt : Nat) (payload : List Nat)
deriving DecidableEq, Repr

/-- A value that fits a field of `n` bits. -/
def fits (n v : Nat) : Bool := decide (v < 2 ^ n)

/-- The assembler's range checks (R110) and SENDMSG's limit of four payload bytes (R111). -/
def Asm.wf : Asm → Bool
  | .send type len => fits 8 type && fits 3 len
  | .stage idx byte => fits 2 idx && fits 8 byte
  | .setseq byte => fits 8 byte
  | .setdcnt byte => fits 8 byte
  | .reclaim slot => fits 4 slot
  | .sendmsg type seq dcnt payload =>
      fits 8 type && fits 8 seq && fits 8 dcnt && payload.all (fits 8) && decide (payload.length ≤ 4)

/-- The STAGE commands of SENDMSG's expansion: STAGE k, p(k), in ascending k from `k` on (R111). -/
def stageFrom : Nat → List Nat → List Instr
  | _, [] => []
  | k, p :: ps => .stage (BitVec.ofNat 2 k) (BitVec.ofNat 8 p) :: stageFrom (k + 1) ps

/-- The commands a line stands for, in order; SENDMSG expands as R111 says. An ill-formed line is an assembly error
and stands for nothing (R110). -/
def Asm.expand (a : Asm) : Option (List Instr) :=
  if a.wf then
    match a with
    | .send type len => some [.send (BitVec.ofNat 8 type) (BitVec.ofNat 3 len)]
    | .stage idx byte => some [.stage (BitVec.ofNat 2 idx) (BitVec.ofNat 8 byte)]
    | .setseq byte => some [.setseq (BitVec.ofNat 8 byte)]
    | .setdcnt byte => some [.setdcnt (BitVec.ofNat 8 byte)]
    | .reclaim slot => some [.reclaim (BitVec.ofNat 4 slot)]
    | .sendmsg type seq dcnt payload =>
        some (stageFrom 0 payload ++
          [.setseq (BitVec.ofNat 8 seq), .setdcnt (BitVec.ofNat 8 dcnt),
           .send (BitVec.ofNat 8 type) (BitVec.ofNat 3 payload.length)])
  else none

end Sys2Proof
end

