-- ==== Sys2Proof/Decode.lean ====
section
/-! DEFINITION. The command word (spec 30_encoding): the decoder of R106, total on every 16-bit word of either port,
refusing by name, and after it the encoder, written from the same patterns of R101 and R109. -/

namespace Sys2Proof

/-- Why a word is ILLEGAL (R102, R104, R105). Each raises ERR_ILLEGAL (R106). -/
inductive Illegal where
  /-- The opcode is reserved (R102). -/
  | reservedOpcode
  /-- A reserved bit of an assigned opcode is set (R104). -/
  | reservedBits
  /-- The opcode belongs to the other port (R105). -/
  | wrongPort
deriving DecidableEq, Repr

/-- What a word decodes to (R106: exactly one command, or ERR_ILLEGAL). -/
inductive Decoded where
  | cmd (i : Instr)
  | illegal (why : Illegal)
deriving DecidableEq, Repr

/-! ## Fields (R101, R103) -/

/-- OP = w[15:12]. -/
def opField (w : Word) : BitVec 4 := w.extractLsb' 12 4
/-- TYPE = w[11:4]. -/
def typeField (w : Word) : BitVec 8 := w.extractLsb' 4 8
/-- LEN = w[2:0]. -/
def lenField (w : Word) : BitVec 3 := w.extractLsb' 0 3
/-- IDX = w[11:10]. -/
def idxField (w : Word) : BitVec 2 := w.extractLsb' 10 2
/-- BYTE = w[7:0]. -/
def byteField (w : Word) : BitVec 8 := w.extractLsb' 0 8
/-- SLOT = w[3:0]. -/
def slotField (w : Word) : BitVec 4 := w.extractLsb' 0 4

/-! ## Decoding (R106) -/

/-- The port a command belongs to (R105). -/
def Instr.port : Instr → Port
  | .send _ _ => .fg
  | .stage _ _ => .fg
  | .setseq _ => .fg
  | .setdcnt _ => .fg
  | .reclaim _ => .irq

/-- The command if the reserved bits are zero (R104). -/
def guardReserved (reservedZero : Bool) (i : Instr) : Decoded :=
  if reservedZero then .cmd i else .illegal .reservedBits

/-- The first part of R106's decoder, before the port check. -/
def decodeWord (w : Word) : Decoded :=
  if opField w = 0x1#4 then guardReserved (w.extractLsb' 3 1 == 0#1) (.send (typeField w) (lenField w))
  else if opField w = 0x2#4 then guardReserved (w.extractLsb' 8 2 == 0#2) (.stage (idxField w) (byteField w))
  else if opField w = 0x3#4 then guardReserved (w.extractLsb' 8 4 == 0#4) (.setseq (byteField w))
  else if opField w = 0x4#4 then guardReserved (w.extractLsb' 8 4 == 0#4) (.setdcnt (byteField w))
  else if opField w = 0x8#4 then guardReserved (w.extractLsb' 4 8 == 0#8) (.reclaim (slotField w))
  else .illegal .reservedOpcode

/-- The port check of R106. -/
def checkPort (port : Port) : Decoded → Decoded
  | .cmd i => if i.port = port then .cmd i else .illegal .wrongPort
  | .illegal why => .illegal why

/-- R106's decoder. -/
def decode (port : Port) (w : Word) : Decoded := checkPort port (decodeWord w)

/-! ## Encoding (R101, R109) -/

/-- The word of a command, field by field from the patterns of R101, bit 15 first. -/
def Instr.encode : Instr → Word
  | .send ty len => 0x1#4 ++ ty ++ 0#1 ++ len
  | .stage idx byte => 0x2#4 ++ idx ++ 0#2 ++ byte
  | .setseq byte => 0x3#4 ++ 0#4 ++ byte
  | .setdcnt byte => 0x4#4 ++ 0#4 ++ byte
  | .reclaim slot => 0x8#4 ++ 0#8 ++ slot

/-- The fixed bits of a command's row of R109 (column "match"). -/
def Instr.matchBits : Instr → Word
  | .send _ _ => 0x1000#16
  | .stage _ _ => 0x2000#16
  | .setseq _ => 0x3000#16
  | .setdcnt _ => 0x4000#16
  | .reclaim _ => 0x8000#16

/-- Which bits of a command's row of R109 are fixed (column "mask"). -/
def Instr.maskBits : Instr → Word
  | .send _ _ => 0xF008#16
  | .stage _ _ => 0xF300#16
  | .setseq _ => 0xFF00#16
  | .setdcnt _ => 0xFF00#16
  | .reclaim _ => 0xFFF0#16

/-- The words a line of assembler produces: none on an assembly error (R110, R111). -/
def Asm.assemble (a : Asm) : Option (List Word) := a.expand.map (List.map Instr.encode)

/-! ## The host's view of the opcode table -/

/-- The port of the table row a word belongs to: opcode 8 is the IRQ port's, every other word is put on the FG port. -/
def portOfWord (w : Word) : Port := if opField w = 0x8#4 then .irq else .fg

/-- The word the host names by its low `nbits` bits: a command is one 16-bit word, the bits above `nbits` are zero
(R100). None where the table would give more than one word. -/
def wordOfTable (nbits w : Nat) : Option Word :=
  if nbits ≤ 16 then some (BitVec.ofNat 16 (w % 2 ^ nbits)) else none

/-- The command the decoder reads from a table word, on the port of its row (R109). -/
def decodeTableWord (nbits w : Nat) : Option Instr :=
  match wordOfTable nbits w with
  | none => none
  | some word =>
    match decode (portOfWord word) word with
    | .cmd i => some i
    | .illegal _ => none

end Sys2Proof
end

