-- ==== Sys2Proof/Machine/State.lean ====
section
/-! DEFINITION. The machine's state: every piece of state of spec 10_state (the block's registers, the controller's
registers, the bus log), the operation that waits at the FG port (R130), the step count of R13, and the model's own
fields for the schedule. INVENTORY.md lists each with its rule and reset value. -/

namespace Sys2Proof.Machine

/-- The fault codes of 60_exceptions R211. The spec RECORDS a fault in the `fault` register and the machine runs on
(R210, R213, R214), so no step answers `Host.Outcome.fault`: these are values of that register. -/
inductive Fault where
  /-- Code 1. Raised by decode on either port, and by a paged access with MOBNB = 15 (R74, R106). Recorded, the command
  has no other effect. Safe: the spec's own treatment. -/
  | errIllegal
  /-- Code 2. Raised by SEND's acceptance when LEN > 4 (R136). Recorded. Safe: the spec's own treatment. -/
  | errLength
  /-- Code 3. Raised by SEND's acceptance when a staging register it needs was never written (R136). Recorded. Safe. -/
  | errUnstaged
  /-- Code 4. Raised by SCAN_TEST when slot 14 is in use (R154) and by CLAIM when the counter is 0 (R159). Recorded, and
  FG returns to IDLE. Safe: the spec's own treatment. -/
  | errNoslot
  /-- Code 5. Raised by RECLAIM of a slot that is no completed in-flight pool slot (R191). Recorded. Safe. -/
  | errSlot
  /-- Code 6. Raised by RECLAIM when the counter is already 7 (R191). Recorded. Safe. -/
  | errOverflow
deriving DecidableEq, Repr

/-- Reasons to refuse an instruction. Every instruction has its meaning, so none is raised. -/
inductive Refusal where
  /-- An instruction without a meaning in the model: raised by no arm of `exec`. Safe. -/
  | notModelled (mnemonic : String)
deriving DecidableEq, Repr

/-- The `fault` register's record (10_state R29). -/
structure FaultRecord where
  code : Fault
  port : Port
  word : Word
deriving DecidableEq, Repr

/-- The FG sequencer's phases (10_state R22), which play the part of a program counter. -/
inductive Phase where
  | idle | poll | scanPage | scanTest | clrRead | clrWrite | claim | page | wrid1 | wrid2 | wrid3 | wrid4
  | wrhdr (k : Fin 4)
  | wrpay (k : Fin 4)
  | enieRead | enieWrite | arm | done
deriving DecidableEq, Repr

/-- A staging register with its written bit (R26, R27). -/
structure Staged where
  val : Byte
  w : Bool
deriving DecidableEq, Repr

/-- One transmitted frame (R45). -/
structure Frame where
  id : BitVec 11
  dlc : BitVec 4
  bytes : List Byte
deriving DecidableEq, Repr

/-- The whole machine. -/
structure State where
  /-- `free_count`, the Free-Slot Counter (R20). -/
  freeCount : Byte
  /-- `phase` (R22). -/
  phase : Phase
  /-- `s`, the scan cursor and then the slot found free (R23). -/
  slot : Slot
  /-- `claimed`, the foreground's ownership mark (R24). -/
  claimed : Option Slot
  /-- `type`, the latched operand of the SEND in progress (R25). -/
  ty : Byte
  /-- `len`, the latched operand of the SEND in progress (R25). -/
  len : BitVec 3
  /-- `SEQ` and `SEQ.w` (R26, R27). -/
  seq : Staged
  /-- `DCNT` and `DCNT.w` (R26, R27). -/
  dcnt : Staged
  /-- `PAY[0..3]` and `PAY[k].w` (R26, R27). -/
  pay : Vector Staged 4
  /-- `fault`, the sticky fault record (R29). -/
  fault : Option FaultRecord
  /-- `gie`, the CPU's global interrupt enable (R31). -/
  gie : Bool
  /-- `t`, the FG temporary register (R48). -/
  tmp : Byte
  /-- CANPAGE (R35). -/
  canpage : Byte
  /-- CANIE1 (R41). -/
  canie1 : Byte
  /-- CANIE2 (R41). -/
  canie2 : Byte
  /-- The mailboxes 0..14 (R33). -/
  mobs : Vector Mailbox Config.mobCount
  /-- The controller's other registers (R42). -/
  other : OtherRegs
  /-- `bus`, the frames transmitted so far, in order (R45). -/
  bus : List Frame
  /-- The operation HOST has issued that waits at the FG port (R130, R139). -/
  held : Option HostOp
  /-- The step count of R13: enabled agent steps taken (log 9). -/
  steps : Nat
  /-- MODEL'S OWN: the external initialisation has run and set the bit timing, the part of INIT_CLEAN's item 3 that no
  register's value shows (R254; log 22). -/
  initialised : Bool
  /-- MODEL'S OWN: the turns the outside has fixed, next first (log 2). -/
  turns : List Turn
  /-- MODEL'S OWN: turns drawn so far, the argument of the free values (log 10). -/
  ticks : Nat
deriving DecidableEq, Repr

/-- Payload staging registers that hold bytes nothing has written: the written bits are 0 (R27, R250). -/
def unwritten (pay : Vector Byte 4) : Vector Staged 4 :=
  #v[⟨pay[0], false⟩, ⟨pay[1], false⟩, ⟨pay[2], false⟩, ⟨pay[3], false⟩]

/-- The state after a reset that leaves R250's and R251's unspecified values at `d`. -/
def State.resetWith (d : ResetDraw) : State :=
  { freeCount := Config.poolSize, phase := .idle, slot := d.slot, claimed := none, ty := d.ty, len := d.len,
    seq := ⟨d.seq, false⟩, dcnt := ⟨d.dcnt, false⟩, pay := unwritten d.pay, fault := none,
    gie := false, tmp := d.tmp, canpage := 0x00#8, canie1 := 0x00#8, canie2 := 0x00#8, mobs := d.mobs,
    other := d.other, bus := [], held := none, steps := 0, initialised := false, turns := [], ticks := 0 }

/-- The machine right after reset (R250, R251). The values those rules leave unspecified are the named ones of
`ResetDraw.named` (DESIGN CHOICE and, for R42's registers, PRESUMED; unsafe: log 5, 6, 7). -/
def State.reset : State := State.resetWith ResetDraw.named

end Sys2Proof.Machine
end

