-- ==== Sys2Proof/Machine/Operands.lean ====
section
/-! DEFINITION. Bit fields: the fields of the controller's registers (10_state R35-R41) and every value the sequencer
assembles from them (41_send_sequencer R152, R161-R169; laws of R172). -/

namespace Sys2Proof.Machine

/-! ## CANPAGE (R35) -/

/-- MOBNB, bits 7:4. -/
def mobnb (page : Byte) : Slot := page.extractLsb' 4 4
/-- AINC, bit 3: no increment when set. -/
def ainc (page : Byte) : Bool := page.getLsbD 3
/-- INDX, bits 2:0. -/
def indx (page : Byte) : BitVec 3 := page.extractLsb' 0 3
/-- The value `s << 4`, the only one the block writes to CANPAGE (R35): MOBNB = s, AINC = 0, INDX = 0. -/
def pageValue (q : Slot) : Byte := q ++ 0#4
/-- CANPAGE after a CANMSG access: INDX advances modulo 8 unless AINC is set (R75). -/
def pageAfterMsg (page : Byte) : Byte :=
  if ainc page then page else page.extractLsb' 3 5 ++ (indx page + 1#3)

/-! ## CANCDMOB (R36) -/

/-- CONMOB, bits 7:6, the two in-use bits. -/
def conmob (cd : Byte) : BitVec 2 := cd.extractLsb' 6 2
/-- IDE, bit 4. -/
def ide (cd : Byte) : Bool := cd.getLsbD 4
/-- DLC, bits 3:0. -/
def dlcField (cd : Byte) : BitVec 4 := cd.extractLsb' 0 4
/-- What ARM writes: CONMOB = 0b01, RPLV = 0, IDE = 0, DLC = len + 4 (R169). -/
def armValue (len : BitVec 3) : Byte := 0x40#8 ||| (len.setWidth 8 + 4#8)

/-! ## CANSTMOB (R37) -/

/-- TXOK, bit 6. -/
def txok (st : Byte) : Bool := st.getLsbD 6
/-- CANSTMOB with TXOK set, the other bits kept (R195). -/
def setTxok (st : Byte) : Byte := st ||| 0x40#8

/-! ## Identifier registers (R38) -/

/-- CANIDT1's content: identifier bits 10..3 (R161). -/
def idt1Value (id : BitVec 11) : Byte := id.extractLsb' 3 8
/-- CANIDT2's content: identifier bits 2..0 above five zeros (R162). -/
def idt2Value (id : BitVec 11) : Byte := id.extractLsb' 0 3 ++ 0#5
/-- The identifier that CTRL reads back: {CANIDT1, CANIDT2[7:5]} (R195). -/
def frameId (idt1 idt2 : Byte) : BitVec 11 := idt1 ++ idt2.extractLsb' 5 3
/-- RTRTAG, bit 2 of CANIDT4. -/
def rtrtag (idt4 : Byte) : Bool := idt4.getLsbD 2

/-! ## CANIE1 (R41) -/

/-- The bit of CANIE1 that enables slot `q`: 1 << (q - 8) (R41, R168). -/
def ieMask (q : Slot) : Byte := 1#8 <<< (q - Config.slotFirst).toNat
/-- The enable bit of slot `q` (R41, R44). -/
def ieBit (ie : Byte) (q : Slot) : Bool := ie.getLsbD (q - Config.slotFirst).toNat

/-! ## The controller-level enables (10_state R42, 60_exceptions R218)

The spec names ENIT and ENTX and gives no bit positions, and it speaks of the controller being enabled without naming the
bit: the positions and the name ENA/STB are the family's (PRESUMED, unsafe: log 29). -/

/-- ENIT, bit 7 of CANGIE: the controller's interrupts are enabled (R218). -/
def enit (gie : Byte) : Bool := gie.getLsbD 7
/-- ENTX, bit 4 of CANGIE: the mailboxes' transmit interrupts are enabled (R218). -/
def entx (gie : Byte) : Bool := gie.getLsbD 4
/-- ENA/STB, bit 1 of CANGCON: the controller is enabled (R254 item 3). -/
def enaStb (gcon : Byte) : Bool := gcon.getLsbD 1
/-- CANGIE with ENIT and ENTX set, the other bits kept (R255 step 2). -/
def setTxEnables (gie : Byte) : Byte := gie ||| 0x90#8
/-- CANGCON with ENA/STB set, the other bits kept (R255 step 2). -/
def setEnaStb (gcon : Byte) : Byte := gcon ||| 0x02#8

/-! ## The pool and the frame -/

/-- `q` is a pool slot, 8..14 (R8, R15). -/
def inPool (q : Slot) : Bool := decide (Config.slotFirst.toNat ≤ q.toNat ∧ q.toNat ≤ Config.slotLast.toNat)

/-- The pool's slots, lowest first (R8). -/
def poolSlots : List Slot := [8#4, 9#4, 10#4, 11#4, 12#4, 13#4, 14#4]

/-- The bytes CTRL sends of a mailbox with this DLC: min(dlc, 8) of them (R195, R196). -/
def frameLength (dlc : BitVec 4) : Nat := min dlc.toNat Config.canDataMax

end Sys2Proof.Machine
end

