-- ==== Sys2Proof/Machine/Flags.lean ====
section
/-! DEFINITION. Everything the spec computes as a status: mailbox access by index, the logical state of a slot (10_state
R40), the pending interrupt (R44), the enabling conditions of IRQ and CTRL (42_reclaim R192, R195), and the checks that
raise faults (40_commands R136, 42_reclaim R191). -/

namespace Sys2Proof.Machine

/-- The numeric fault codes (60_exceptions R211). -/
def Fault.number : Fault → Nat
  | .errIllegal => 1
  | .errLength => 2
  | .errUnstaged => 3
  | .errNoslot => 4
  | .errSlot => 5
  | .errOverflow => 6

/-- The registers of mailbox `m` among the controller's fifteen (R33). Index 15 selects no mailbox (R35): every use is
guarded by R74 or by the pool check, so what it gives there is never used. -/
def mobAt (mobs : Vector Mailbox Config.mobCount) (m : Slot) : Mailbox :=
  if h : m.toNat < Config.mobCount then mobs[m.toNat] else Mailbox.zero

/-- The mailboxes with mailbox `m` replaced; there is no mailbox 15. -/
def mobSet (mobs : Vector Mailbox Config.mobCount) (m : Slot) (x : Mailbox) : Vector Mailbox Config.mobCount :=
  if h : m.toNat < Config.mobCount then mobs.set m.toNat x else mobs

/-- The registers of mailbox `m` (R33). -/
abbrev State.mob (s : State) (m : Slot) : Mailbox := mobAt s.mobs m

/-! ## Logical slot states (R40) -/

/-- The logical states of a pool slot; Completed is InFlight's sub-state with TXOK = 1 (R40, R199). -/
inductive SlotState where
  | idle | claimed | inFlight | completed | foreign
deriving DecidableEq, Repr

/-- R40's table: the logical state from the slot's registers and whether `claimed` names it. -/
def slotStateOf (x : Mailbox) (mine : Bool) : SlotState :=
  if conmob x.cdmob = 0b01#2 then
    if txok x.stmob then .completed else .inFlight
  else if conmob x.cdmob ≠ 0b00#2 then .foreign
  else if mine then .claimed
  else .idle

/-- The logical state of slot `q`, read off the hardware bits and `claimed` (R40). -/
def State.slotState (s : State) (q : Slot) : SlotState := slotStateOf (s.mob q) (s.claimed == some q)

/-- How many pool slots are Idle (R46). -/
def State.idleCount (s : State) : Nat := poolSlots.countP (fun q => s.slotState q == .idle)

/-! ## The completion interrupt (R44, R192) -/

/-- Slot `q` has a pending completion interrupt (R44). -/
def State.pending (s : State) (q : Slot) : Bool := txok (s.mob q).stmob && ieBit s.canie1 q

/-- The IRQ agent may serve slot `q` (R192). -/
def State.irqEnabled (s : State) (q : Slot) : Bool := s.gie && inPool q && s.pending q

/-- Slot `q`'s pending interrupt is carried to the CPU as the controller's interrupt: the controller-level enables are on
(R218). IRQ's turn does not ask for it: R192 says exactly when IRQ may step, and INIT_CLEAN assumes the enables (log 22). -/
def State.routed (s : State) (q : Slot) : Bool := s.pending q && enit s.other.cangie && entx s.other.cangie

/-! ## Transmission (R195) -/

/-- Slot `q` is armed and not yet transmitted (R195). -/
def State.armed (s : State) (q : Slot) : Bool :=
  inPool q && conmob (s.mob q).cdmob == 0b01#2 && !txok (s.mob q).stmob

/-- CTRL may transmit slot `q`. A slot with IDE = 1 or RTRTAG = 1 gets no step, as R195 and U22 allow (log 17). -/
def State.txEnabled (s : State) (q : Slot) : Bool :=
  s.armed q && !ide (s.mob q).cdmob && !rtrtag (s.mob q).idt4

/-! ## Checks that raise faults -/

/-- PAY[0..n-1] have all been written (R136). -/
def State.payStaged (s : State) (n : Nat) : Bool := (s.pay.toList.take n).all (fun x => x.w)

/-- SEND's acceptance check (R136): the first check that fails gives the fault. TYPE is checked by none of them. -/
def State.sendCheck (s : State) (len : BitVec 3) : Option Fault :=
  if len.toNat > Config.maxPayload then some .errLength
  else if s.seq.w = false ∨ s.dcnt.w = false then some .errUnstaged
  else if s.payStaged len.toNat = false then some .errUnstaged
  else none

/-- RECLAIM's check (R191): range, then state, then the counter. -/
def State.reclaimCheck (s : State) (q : Slot) : Option Fault :=
  if inPool q = false then some .errSlot
  else if conmob (s.mob q).cdmob ≠ 0b01#2 ∨ txok (s.mob q).stmob = false then some .errSlot
  else if s.freeCount = Config.poolSize then some .errOverflow
  else none

end Sys2Proof.Machine
end

