-- ==== Sys2Proof/Machine/Ops.lean ====
section
/-! DEFINITION. The named operations: recording a fault (60_exceptions R213), mailbox and register access (20_memory
R71-R78), the FG port's hold (40_commands R130), and the bookkeeping of a turn. -/

namespace Sys2Proof.Machine

/-! ## Faults -/

/-- `raise Fault(code)` (00_scope R12, 60_exceptions R213): the record is written only when none stands. There is no
trap: nothing else changes (R210). -/
def State.raise (s : State) (code : Fault) (port : Port) (word : Word) : State :=
  match s.fault with
  | none => { s with fault := some ⟨code, port, word⟩ }
  | some _ => s

/-- The word of the SEND in progress, which a fault in a micro-step records (10_state R29). Its two operands are latched
and its other bits are fixed, so it is rebuilt from them (DEDUCED, safe: log 11). -/
def State.sendWord (s : State) : Word := (Instr.send s.ty s.len).encode

/-- A fault raised by a micro-step of FG. -/
def State.raiseFg (s : State) (code : Fault) : State := s.raise code .fg s.sendWord

/-! ## The sequencer's own assignments -/

/-- `goto P` (R12). -/
def State.goto (s : State) (next : Phase) : State := { s with phase := next }

/-- `claimed <- none` (R169). -/
def State.disown (s : State) : State := { s with claimed := none }

/-- The operation that waits at the FG port becomes `op` (R130). -/
def State.hold (s : State) (op : Option HostOp) : State := { s with held := op }

/-! ## Mailboxes -/

/-- `s` with mailbox `m` replaced. -/
def State.setMob (s : State) (m : Slot) (x : Mailbox) : State := { s with mobs := mobSet s.mobs m x }

/-- `s` with mailbox `m` changed by `f`. -/
def State.updMob (s : State) (m : Slot) (f : Mailbox → Mailbox) : State := s.setMob m (f (s.mob m))

/-- A paged write: it reaches the copy of the mailbox that CANPAGE.MOBNB selects (R73); none when MOBNB = 15 (R74). -/
def State.pagedWrite (s : State) (f : Mailbox → Mailbox) : Option State :=
  if mobnb s.canpage = 15#4 then none else some (s.updMob (mobnb s.canpage) f)

/-- A paged read without a side effect (R73, R76-R78); none when MOBNB = 15 (R74). -/
def State.pagedRead (s : State) (f : Mailbox → Byte) : Option (Byte × State) :=
  if mobnb s.canpage = 15#4 then none else some (f (s.mob (mobnb s.canpage)), s)

/-- The CANMSG access's side effect on CANPAGE (R75). -/
def State.afterMsg (s : State) : State := { s with canpage := pageAfterMsg s.canpage }

/-- MSG[i] of a mailbox replaced. -/
def setMsg (x : Mailbox) (i : BitVec 3) (v : Byte) : Mailbox :=
  { x with msg := x.msg.set i.toNat v i.isLt }

/-- MSG[i] of a mailbox. -/
def getMsg (x : Mailbox) (i : BitVec 3) : Byte := x.msg[i.toNat]'i.isLt

/-! ## RegRead and RegWrite (R12, R71-R78) -/

/-- `RegRead(name)`: the value and the state after the access. None is R74's illegal access. -/
def State.regRead (s : State) : RegName → Option (Byte × State)
  | .canpage => some (s.canpage, s)
  | .canie1 => some (s.canie1 &&& 0x7F#8, s)
  | .canstmob => s.pagedRead (fun x => x.stmob)
  | .cancdmob => s.pagedRead (fun x => x.cdmob)
  | .canidt1 => s.pagedRead (fun x => x.idt1)
  | .canidt2 => s.pagedRead (fun x => x.idt2)
  | .canidt3 => s.pagedRead (fun x => x.idt3)
  | .canidt4 => s.pagedRead (fun x => x.idt4)
  | .canmsg => (s.pagedRead (fun x => getMsg x (indx s.canpage))).map (fun r => (r.1, r.2.afterMsg))

/-- `RegWrite(name, v)`. None is R74's illegal access. CANIE1 ignores writes to bit 7 (R41, R78); a CANMSG write stores
the byte and then advances INDX (R75). -/
def State.regWrite (s : State) (v : Byte) : RegName → Option State
  | .canpage => some { s with canpage := v }
  | .canie1 => some { s with canie1 := v &&& 0x7F#8 }
  | .canstmob => s.pagedWrite (fun x => { x with stmob := v })
  | .cancdmob => s.pagedWrite (fun x => { x with cdmob := v })
  | .canidt1 => s.pagedWrite (fun x => { x with idt1 := v })
  | .canidt2 => s.pagedWrite (fun x => { x with idt2 := v })
  | .canidt3 => s.pagedWrite (fun x => { x with idt3 := v })
  | .canidt4 => s.pagedWrite (fun x => { x with idt4 := v })
  | .canmsg => (s.pagedWrite (fun x => setMsg x (indx s.canpage) v)).map State.afterMsg

/-- A micro-step that writes one register and goes to the next phase. An illegal access raises ERR_ILLEGAL and the
micro-step has no further effect (R12, R74; log 12). -/
def State.writeThen (s : State) (r : RegName) (v : Byte) (next : Phase) : State :=
  match s.regWrite v r with
  | some s' => s'.goto next
  | none => s.raiseFg .errIllegal

/-- A micro-step that reads one register and goes on with the value read. An illegal access as in `writeThen`. -/
def State.readThen (s : State) (r : RegName) (k : Byte → State → State) : State :=
  match s.regRead r with
  | some (v, s') => k v s'
  | none => s.raiseFg .errIllegal

/-! ## Ports and turns -/

/-- An FG-port command: accepted only in IDLE, otherwise the port holds and nothing changes (R130). -/
def onFgPort (s : State) (accept : State → State) : Host.Outcome State Fault Refusal :=
  .next (if s.phase = .idle then accept s else s)

/-- A command whose check refuses it records its fault and has no other effect (R136, R191, R212). -/
def State.refuseOr (s : State) (refusal : Option Fault) (i : Instr) (accepted : State) : State :=
  match refusal with
  | some code => s.raise code i.port i.encode
  | none => accepted

/-- The turn is taken from the schedule. -/
def State.pop (s : State) : State := { s with turns := s.turns.tail, ticks := s.ticks + 1 }

/-- One enabled agent step is counted (R13). -/
def State.count (s : State) : State := { s with steps := s.steps + 1 }

/-- The state an enabled agent's step works on: its turn taken, its step counted. -/
def State.begun (s : State) : State := s.pop.count

/-- Whose turn it is: the first of the fixed ones, and a free choice when none is fixed (R10; log 2). -/
def nextTurn (p : Params) (s : State) : Turn :=
  match s.turns with
  | t :: _ => t
  | [] => p.turn s.ticks

end Sys2Proof.Machine
end

