-- ==== Sys2Proof/Machine/Reclaim.lean ====
section
/-! DEFINITION. RECLAIM (42_reclaim R190, R191), the whole handler run in one atomic step. -/

namespace Sys2Proof.Machine

/-- The effect of an accepted RECLAIM (R190): the slot's control and status registers become 0x00 and the counter is
incremented; CANPAGE, CANIE1 and every other register keep their values (R193; the handler's duty, log 15). -/
def State.release (s : State) (q : Slot) : State :=
  { s with mobs := mobSet s.mobs q { s.mob q with cdmob := 0x00#8, stmob := 0x00#8 },
           freeCount := s.freeCount + 1#8 }

/-- RECLAIM (R190), refused as R191 says. -/
def execReclaim (slot : BitVec 4) (s : State) : Host.Outcome State Fault Refusal :=
  .next (s.refuseOr (s.reclaimCheck slot) (.reclaim slot) (s.release slot))

end Sys2Proof.Machine
end

