-- ==== Sys2Proof/Machine/Send.lean ====
section
/-! DEFINITION. SEND's acceptance (40_commands R135, R136). Its micro-steps are in Sequencer.lean. -/

namespace Sys2Proof.Machine

/-- SEND at acceptance (R135): after the check of R136, latch TYPE and LEN and go to POLL. -/
def execSend (ty : BitVec 8) (len : BitVec 3) (s : State) : Host.Outcome State Fault Refusal :=
  onFgPort s (fun s => s.refuseOr (s.sendCheck len) (.send ty len) { s with ty := ty, len := len, phase := .poll })

end Sys2Proof.Machine
end

