-- ==== Sys2Proof/Machine/Staging.lean ====
section
/-! DEFINITION. The staging commands (40_commands R132-R134). -/

namespace Sys2Proof.Machine

/-- STAGE (R132): PAY[IDX] <- BYTE; PAY[IDX].w <- 1. -/
def execStage (idx : BitVec 2) (byte : BitVec 8) (s : State) : Host.Outcome State Fault Refusal :=
  onFgPort s (fun s => { s with pay := s.pay.set idx.toNat ⟨byte, true⟩ idx.isLt })

/-- SETSEQ (R133): SEQ <- BYTE; SEQ.w <- 1. -/
def execSetseq (byte : BitVec 8) (s : State) : Host.Outcome State Fault Refusal :=
  onFgPort s (fun s => { s with seq := ⟨byte, true⟩ })

/-- SETDCNT (R134): DCNT <- BYTE; DCNT.w <- 1. -/
def execSetdcnt (byte : BitVec 8) (s : State) : Host.Outcome State Fault Refusal :=
  onFgPort s (fun s => { s with dcnt := ⟨byte, true⟩ })

end Sys2Proof.Machine
end

