-- ==== Sys2Proof/Machine/Dispatch.lean ====
section
/-! DEFINITION. One arm per command: the meaning it calls. -/

namespace Sys2Proof.Machine

def exec (i : Instr) (s : State) : Host.Outcome State Fault Refusal :=
  match i with
  | .send ty len => Sys2Proof.Machine.execSend ty len s
  | .stage idx byte => Sys2Proof.Machine.execStage idx byte s
  | .setseq byte => Sys2Proof.Machine.execSetseq byte s
  | .setdcnt byte => Sys2Proof.Machine.execSetdcnt byte s
  | .reclaim slot => Sys2Proof.Machine.execReclaim slot s

end Sys2Proof.Machine
end

