-- ==== Sys2Proof/Machine/Sequencer.lean ====
section
/-! DEFINITION. The FG sequencer: the micro-steps of an accepted SEND (41_send_sequencer R150-R170), one definition each.
Each is one atomic step (R81). A paged access with MOBNB = 15, which no reachable state makes, raises ERR_ILLEGAL
(20_memory R74). -/

namespace Sys2Proof.Machine

/-! ## Pool manager (R151-R159) -/

/-- POLL (R151): spin while the counter is zero, else start the scan at slot 8. -/
def fgPoll (s : State) : State :=
  if s.freeCount = 0#8 then s else { s with slot := Config.slotFirst, phase := .scanPage }

/-- SCAN_PAGE (R152). -/
def fgScanPage (s : State) : State := s.writeThen .canpage (pageValue s.slot) .scanTest

/-- Scan exhaustion (R154): ERR_NOSLOT, and FG returns to IDLE with nothing claimed. -/
def fgExhausted (s : State) : State := (s.raiseFg .errNoslot).goto .idle

/-- SCAN_TEST (R153): a slot whose two in-use bits are clear is found; otherwise the next slot, or exhaustion at 14. -/
def fgScanTest (s : State) : State :=
  s.readThen .cancdmob (fun v s =>
    if conmob v = 0b00#2 then s.goto .clrRead
    else if s.slot.toNat < Config.slotLast.toNat then { s with slot := s.slot + 1#4, phase := .scanPage }
    else fgExhausted s)

/-- CLR_READ (R157): the value read is discarded. -/
def fgClrRead (s : State) : State := s.readThen .canstmob (fun _ s => s.goto .clrWrite)

/-- CLR_WRITE (R158). -/
def fgClrWrite (s : State) : State := s.writeThen .canstmob 0x00#8 .claim

/-- CLAIM (R159): the critical-section decrement with the ownership mark, one atomic step; `gie` is as before (R32). -/
def fgClaim (s : State) : State :=
  if s.freeCount = 0#8 then (s.raiseFg .errNoslot).goto .idle
  else { s with freeCount := s.freeCount - 1#8, claimed := some s.slot, phase := .page }

/-! ## Frame builder (R160-R170) -/

/-- PAGE (R160). -/
def fgPage (s : State) : State := s.writeThen .canpage (pageValue s.slot) .wrid1

/-- WRID1 (R161). -/
def fgWrid1 (p : Params) (s : State) : State := s.writeThen .canidt1 (idt1Value p.bootCanId) .wrid2

/-- WRID2 (R162). -/
def fgWrid2 (p : Params) (s : State) : State := s.writeThen .canidt2 (idt2Value p.bootCanId) .wrid3

/-- WRID3 (R163). -/
def fgWrid3 (s : State) : State := s.writeThen .canidt3 0x00#8 .wrid4

/-- WRID4 (R164). -/
def fgWrid4 (s : State) : State := s.writeThen .canidt4 0x00#8 (.wrhdr 0)

/-- Header byte `k`: [BOARD_ID, type, SEQ, DCNT] (R165). -/
def hdrByte (p : Params) (s : State) (k : Fin 4) : Byte :=
  match k with
  | 0 => p.boardId
  | 1 => s.ty
  | 2 => s.seq.val
  | 3 => s.dcnt.val

/-- The phase after WRHDR(k) (R165). -/
def afterHdr (len : BitVec 3) (k : Fin 4) : Phase :=
  if h : k.val < 3 then .wrhdr ⟨k.val + 1, by omega⟩
  else if len = 0#3 then .enieRead
  else .wrpay 0

/-- WRHDR(k) (R165). -/
def fgWrhdr (p : Params) (k : Fin 4) (s : State) : State := s.writeThen .canmsg (hdrByte p s k) (afterHdr s.len k)

/-- The phase after WRPAY(k) (R166). There are four payload registers, so no WRPAY(4): with a latched `len` above 4,
which SEND never accepts, the payload ends after PAY[3] (DESIGN CHOICE for an unreachable state, safe: log 19). -/
def afterPay (len : BitVec 3) (k : Fin 4) : Phase :=
  if h : k.val + 1 < len.toNat ∧ k.val + 1 < 4 then .wrpay ⟨k.val + 1, h.2⟩ else .enieRead

/-- WRPAY(k) (R166). -/
def fgWrpay (k : Fin 4) (s : State) : State := s.writeThen .canmsg s.pay[k].val (afterPay s.len k)

/-- ENIE_READ (R167): t <- CANIE1. -/
def fgEnieRead (s : State) : State := s.readThen .canie1 (fun v s => { s with tmp := v, phase := .enieWrite })

/-- ENIE_WRITE (R168): CANIE1 <- t | (1 << (s - 8)). -/
def fgEnieWrite (s : State) : State := s.writeThen .canie1 (s.tmp ||| ieMask s.slot) .arm

/-- ARM (R169): the control register and the ownership mark, in one atomic step. -/
def fgArm (s : State) : State :=
  match s.regWrite (armValue s.len) .cancdmob with
  | some s' => s'.disown.goto .done
  | none => s.raiseFg .errIllegal

/-- DONE (R170). -/
def fgDone (s : State) : State := s.goto .idle

/-! ## The next micro-step -/

/-- FG's micro-step in the phase it stands in (R22, R150); in IDLE there is none. -/
def fgMicro (p : Params) (s : State) : State :=
  match s.phase with
  | .idle => s
  | .poll => fgPoll s
  | .scanPage => fgScanPage s
  | .scanTest => fgScanTest s
  | .clrRead => fgClrRead s
  | .clrWrite => fgClrWrite s
  | .claim => fgClaim s
  | .page => fgPage s
  | .wrid1 => fgWrid1 p s
  | .wrid2 => fgWrid2 p s
  | .wrid3 => fgWrid3 s
  | .wrid4 => fgWrid4 s
  | .wrhdr k => fgWrhdr p k s
  | .wrpay k => fgWrpay k s
  | .enieRead => fgEnieRead s
  | .enieWrite => fgEnieWrite s
  | .arm => fgArm s
  | .done => fgDone s

end Sys2Proof.Machine
end

