-- ==== Sys2Proof/Machine/Agents.lean ====
section
/-! DEFINITION. The agents' turns (00_scope R10, R13): the two command ports, FG, IRQ, CTRL, and the two things the
outside does to the whole machine, reset (70_reset R250, R251) and the external initialisation (R255 step 2). An agent
with no enabled step holds: its turn passes and nothing else changes. -/

namespace Sys2Proof.Machine

/-! ## The command ports -/

/-- A word arrives on a port (R131, R106): decoded, then its command runs; an ILLEGAL word raises ERR_ILLEGAL and has no
other effect. -/
def portWord (port : Port) (w : Word) (s : State) : Host.Outcome State Fault Refusal :=
  match decode port w with
  | .cmd i => exec i s
  | .illegal _ => .next (s.raise .errIllegal port w)

/-- HOST's operation takes effect (R131, R139). -/
def hostAccept (op : HostOp) (s : State) : Host.Outcome State Fault Refusal :=
  match op with
  | .issue w => portWord .fg w s
  | .setGie b => .next { s with gie := b }

/-- HOST's turn (R130, R139): while FG is busy the operation waits at the port. HOST's caller is blocked while one
waits, so it is that one which is tried again (DEDUCED, safe: log 4). -/
def hostTurn (op : HostOp) (s : State) : Host.Outcome State Fault Refusal :=
  if s.phase = .idle then hostAccept (s.held.getD op) (s.hold none).count
  else .next (s.hold (some (s.held.getD op)))

/-- A word fed to the IRQ port directly: checked like any other (R192; log 14). -/
def irqPortTurn (w : Word) (s : State) : Host.Outcome State Fault Refusal := portWord .irq w s.count

/-- The IRQ agent's turn (R192): it issues RECLAIM q when `gie` = 1 and slot q is pending, and holds otherwise. -/
def irqTurn (q : Slot) (s : State) : Host.Outcome State Fault Refusal :=
  if s.irqEnabled q then portWord .irq (Instr.reclaim q).encode s.count else .next s

/-! ## FG -/

/-- FG's turn (R10, R150): its next micro-step; in IDLE it has none. -/
def fgTurn (p : Params) (s : State) : Host.Outcome State Fault Refusal :=
  if s.phase = .idle then .next s else .next (fgMicro p s.count)

/-! ## CTRL -/

/-- The frame CTRL builds from a mailbox's registers (R195, R196). -/
def frameOf (x : Mailbox) : Frame :=
  { id := frameId x.idt1 x.idt2, dlc := dlcField x.cdmob,
    bytes := x.msg.toList.take (frameLength (dlcField x.cdmob)) }

/-- TX(q) (R195): the frame goes on the bus and TXOK is set; nothing else changes (R198). -/
def State.transmit (s : State) (q : Slot) : State :=
  { s with mobs := mobSet s.mobs q { s.mob q with stmob := setTxok (s.mob q).stmob },
           bus := s.bus ++ [frameOf (s.mob q)] }

/-- CTRL's turn (R195). -/
def ctrlTurn (q : Slot) (s : State) : Host.Outcome State Fault Refusal :=
  if s.txEnabled q then .next (s.count.transmit q) else .next s

/-! ## The outside -/

/-- The state after a reset during a run (R250, R251), the unspecified values at `d`. The schedule and the model's
counters go on; an operation that waited at the port is gone (DESIGN CHOICE, safe: log 21). -/
def State.resetFrom (s : State) (d : ResetDraw) : State :=
  { State.resetWith d with turns := s.turns, ticks := s.ticks, steps := s.steps }

/-- Reset's turn: the unspecified values are drawn freely (R34). -/
def resetTurn (p : Params) (s : State) : Host.Outcome State Fault Refusal :=
  .next (s.resetFrom (p.resetDraw s.ticks))

/-- A mailbox with its control and status registers cleared (R255 step 2). -/
def clearedMob (x : Mailbox) : Mailbox := { x with cdmob := 0x00#8, stmob := 0x00#8 }

/-- The mailboxes with those of the pool cleared (R255 step 2). -/
def clearPool (mobs : Vector Mailbox Config.mobCount) : Vector Mailbox Config.mobCount :=
  poolSlots.foldl (fun v q => mobSet v q (clearedMob (mobAt v q))) mobs

/-- The controller's other registers with the controller enabled and its transmit interrupts enabled (R218, R255 step 2);
every other bit as it is, the bit timing among them. -/
def enableController (o : OtherRegs) : OtherRegs :=
  { o with cangcon := setEnaStb o.cangcon, cangie := setTxEnables o.cangie }

/-- What the external initialisation leaves (R254, R255 step 2): CANCDMOB and CANSTMOB of mailboxes 8..14 cleared, the
controller and its transmit interrupts enabled, every other bit of the controller free. -/
def State.initWith (s : State) (d : InitDraw) : State :=
  { s with canpage := d.canpage, canie1 := d.canie1 &&& 0x7F#8, canie2 := d.canie2, mobs := clearPool d.mobs,
           other := enableController d.other, initialised := true }

/-- The external initialisation's turn (R255; log 20): it runs once after a reset, and not inside a SEND, since it is
foreground software; from then on nothing but FG, IRQ and CTRL writes these registers (R254 item 4). -/
def initTurn (p : Params) (s : State) : Host.Outcome State Fault Refusal :=
  if s.initialised = false ∧ s.phase = .idle then .next (s.initWith (p.initDraw s.ticks)) else .next s

/-! ## One turn -/

/-- What a turn does to the state from which it has been taken. -/
def takeTurn (p : Params) (t : Turn) (s : State) : Host.Outcome State Fault Refusal :=
  match t with
  | .host op => hostTurn op s
  | .fg => fgTurn p s
  | .irq q => irqTurn q s
  | .irqPort w => irqPortTurn w s
  | .ctrl q => ctrlTurn q s
  | .init => initTurn p s
  | .reset => resetTurn p s

/-- One step of the machine with the open parameters `p`. -/
def stepWith (p : Params) (s : State) : Host.Outcome State Fault Refusal := takeTurn p (nextTurn p s) s.pop

/-- `s` with a word placed so that the very next step takes it from its port: HOST issues it while FG is idle and
nothing else waits, or it is fed to the IRQ port. -/
def State.place (s : State) (w : Word) : State :=
  match portOfWord w with
  | .fg => { s with turns := .host (.issue w) :: s.turns, phase := .idle, held := none }
  | .irq => { s with turns := .irqPort w :: s.turns }

end Sys2Proof.Machine
end

