-- ==== Sys2Proof/Machine/Step.lean ====
section
/-! DEFINITION. One step of the machine, and how a command word is put before it (log 3). -/

namespace Sys2Proof.Machine

/-- One step: the turn that is next, with every open parameter unknown (R9, R10). -/
def step : State → Host.Outcome State Fault Refusal := stepWith Config.params

/-- The command word `w` placed at its port as the next thing that happens (R100; log 3). -/
def State.withFetchWord (s : State) (nbits w : Nat) : State :=
  match wordOfTable nbits w with
  | some word => s.place word
  | none => s

end Sys2Proof.Machine
end

