-- ==== Sys2Proof/Safety.lean ====
section
/-! DEFINITION. What counts as a good state and a good run, in the terms the claims use: the reset and launch premises
(70_reset R250-R254), the invariants of the block (10_state R21, R23, R25, R41, R46, R47, 41_send_sequencer R156, R171),
what every frame on the bus looks like (R171, R195), and the fairness premises (R268). -/

namespace Sys2Proof.Machine

/-! ## Reset and launch -/

/-- What R250 and R251 fix of a state after reset; the values they leave unspecified are not constrained. -/
structure IsReset (s : State) : Prop where
  counter : s.freeCount = 7#8
  phase : s.phase = .idle
  claimed : s.claimed = none
  seq : s.seq.w = false
  dcnt : s.dcnt.w = false
  pay : ∀ k : Fin 4, (s.pay[k]).w = false
  fault : s.fault = none
  gie : s.gie = false
  bus : s.bus = []
  canpage : s.canpage = 0x00#8
  canie1 : s.canie1 = 0x00#8
  canie2 : s.canie2 = 0x00#8

/-- Item 3 of INIT_CLEAN (R254, R218): the controller is enabled, with its bit timing set, and the controller-level transmit
interrupt enables are on. That the bit timing has been set, to a value the spec does not give, is the model's `initialised`
(log 22). -/
structure ControllerReady (s : State) : Prop where
  initialised : s.initialised = true
  running : enaStb s.other.cangcon = true
  interrupts : enit s.other.cangie = true
  transmit : entx s.other.cangie = true

/-- INIT_CLEAN (R254), the launch premise. Item 4 holds by construction, since no other agent's turn writes those
registers. -/
structure InitClean (s : State) : Prop where
  disabled : ∀ q, inPool q = true → conmob (s.mob q).cdmob = 0b00#2
  txokClear : ∀ q, inPool q = true → txok (s.mob q).stmob = false
  counter : s.freeCount = 7#8
  claimed : s.claimed = none
  phase : s.phase = .idle
  fault : s.fault = none
  bus : s.bus = []
  ready : ControllerReady s

/-! ## Groups of phases -/

/-- The scan is under way (R152, R153). -/
def Phase.scanning : Phase → Bool
  | .scanPage | .scanTest => true
  | _ => false

/-- Between POLL's non-zero reading and the decrement (R151-R159). -/
def Phase.beforeClaim : Phase → Bool
  | .scanPage | .scanTest | .clrRead | .clrWrite | .claim => true
  | _ => false

/-- A slot has been found free and is not armed yet (R23: "From CLR_READ through ARM"). -/
def Phase.found : Phase → Bool
  | .clrRead | .clrWrite | .claim | .page | .wrid1 | .wrid2 | .wrid3 | .wrid4 | .wrhdr _ | .wrpay _
  | .enieRead | .enieWrite | .arm => true
  | _ => false

/-- The found slot's status has been cleared and it is not armed yet (R158, R168). -/
def Phase.statusCleared : Phase → Bool
  | .claim | .page | .wrid1 | .wrid2 | .wrid3 | .wrid4 | .wrhdr _ | .wrpay _ | .enieRead | .enieWrite | .arm => true
  | _ => false

/-- The slot is Claimed (R47). -/
def Phase.owned : Phase → Bool
  | .page | .wrid1 | .wrid2 | .wrid3 | .wrid4 | .wrhdr _ | .wrpay _ | .enieRead | .enieWrite | .arm => true
  | _ => false

/-- CANPAGE selects the slot register's mailbox (R157's and R160's corner cases). -/
def Phase.paged : Phase → Bool
  | .idle | .poll | .scanPage => false
  | _ => true

/-- PAGE has reset the data cursor (R160). -/
def Phase.cursorSet : Phase → Bool
  | .wrid1 | .wrid2 | .wrid3 | .wrid4 | .wrhdr _ | .wrpay _ | .enieRead | .enieWrite | .arm | .done => true
  | _ => false

/-- How many identifier registers have been written (R161-R164). -/
def Phase.idtWritten : Phase → Nat
  | .wrid2 => 1
  | .wrid3 => 2
  | .wrid4 => 3
  | .wrhdr _ | .wrpay _ | .enieRead | .enieWrite | .arm | .done => 4
  | _ => 0

/-- How many data bytes have been written (R165, R166). -/
def Phase.msgWritten (len : BitVec 3) : Phase → Nat
  | .wrhdr k => k.val
  | .wrpay k => 4 + k.val
  | .enieRead | .enieWrite | .arm | .done => 4 + len.toNat
  | _ => 0

/-- The completion interrupt of the slot has been enabled (R168). -/
def Phase.ieWritten : Phase → Bool
  | .arm | .done => true
  | _ => false

/-! ## Invariants of the sequencer, in every state -/

/-- What holds of the block's registers whatever the agents do, reset and initialisation among it. POLL is left out of
R23's claim about `s`, since POLL is what writes it (R250; log 24). -/
structure SeqInv (s : State) : Prop where
  /-- R21: the counter never exceeds the pool size. -/
  counterLe : s.freeCount.toNat ≤ 7
  /-- R41: bit 7 of CANIE1 stays 0. -/
  ieReserved : s.canie1.getLsbD 7 = false
  /-- R23. -/
  slotInPool : s.phase ≠ .idle → s.phase ≠ .poll → inPool s.slot = true
  /-- R25. -/
  lenLe : s.phase ≠ .idle → s.len.toNat ≤ 4
  /-- R22: WRPAY(k) has k in 0..len-1. -/
  payLt : ∀ k, s.phase = .wrpay k → k.val < s.len.toNat
  /-- R157, R160: CANPAGE selects `s`. -/
  pageSelects : s.phase.paged = true → mobnb s.canpage = s.slot
  /-- R160, R165, R166: the data cursor counts the bytes written, modulo 8. -/
  cursor : s.phase.cursorSet = true →
    ainc s.canpage = false ∧ (indx s.canpage).toNat = s.phase.msgWritten s.len % 8
  /-- R21, R159: CLAIM never runs with the counter at 0. -/
  counterPos : s.phase.beforeClaim = true → s.freeCount ≠ 0#8
  /-- R153, R199: the slot found stays disabled until ARM. -/
  foundFree : s.phase.found = true → conmob (s.mob s.slot).cdmob = 0b00#2
  /-- R158, R168: its TXOK stays clear until ARM. -/
  foundClear : s.phase.statusCleared = true → txok (s.mob s.slot).stmob = false
  /-- R24, R47: the ownership mark is `s` exactly from PAGE through ARM. -/
  owner : s.claimed = if s.phase.owned = true then some s.slot else none
  /-- R167, R168, R259: no CANIE1 write falls between the two halves. -/
  tmpCopy : s.phase = .enieWrite → s.tmp = s.canie1

/-- Byte `j` of the frame of the SEND in progress (R165, R166, R171). -/
def frameByte (p : Params) (s : State) (j : Fin 8) : Byte :=
  if h : j.val < 4 then hdrByte p s ⟨j.val, h⟩ else (s.pay[j.val - 4]'(by omega)).val

/-- R171 while the frame is built, under every interleaving (R173): whatever has been written stands. -/
structure FrameInv (p : Params) (s : State) : Prop where
  idt1 : 1 ≤ s.phase.idtWritten → (s.mob s.slot).idt1 = idt1Value p.bootCanId
  idt2 : 2 ≤ s.phase.idtWritten → (s.mob s.slot).idt2 = idt2Value p.bootCanId
  idt3 : 3 ≤ s.phase.idtWritten → (s.mob s.slot).idt3 = 0x00#8
  idt4 : 4 ≤ s.phase.idtWritten → (s.mob s.slot).idt4 = 0x00#8
  msg : ∀ j : Fin 8, j.val < s.phase.msgWritten s.len → (s.mob s.slot).msg[j] = frameByte p s j
  ie : s.phase.ieWritten = true → ieBit s.canie1 s.slot = true

/-! ## Invariants after the launch -/

/-- A mailbox the block has armed (R169, R171): the bootloader's identifier, a data frame, DLC 4..8, BOARD_ID first. -/
structure ArmedMailbox (p : Params) (x : Mailbox) : Prop where
  id : frameId x.idt1 x.idt2 = p.bootCanId
  standard : ide x.cdmob = false
  dataFrame : rtrtag x.idt4 = false
  dlcGe : 4 ≤ (dlcField x.cdmob).toNat
  dlcLe : (dlcField x.cdmob).toNat ≤ 8
  board : x.msg[0] = p.boardId

/-- A frame as the block sends it (R171, R195). -/
structure GoodFrame (p : Params) (f : Frame) : Prop where
  id : f.id = p.bootCanId
  length : f.bytes.length = f.dlc.toNat
  dlcGe : 4 ≤ f.dlc.toNat
  dlcLe : f.dlc.toNat ≤ 8
  board : f.bytes.head? = some p.boardId

/-- What holds in every state reachable from a launch (R46, R156, R171, R199, R269). -/
structure LaunchInv (p : Params) (s : State) : Prop where
  /-- R254 item 3, R218: the controller stays enabled and its transmit interrupts with it. -/
  ready : ControllerReady s
  seq : SeqInv s
  frame : FrameInv p s
  /-- R46: the counter is the number of Idle slots. -/
  counter : s.freeCount.toNat = s.idleCount
  /-- R156: while the scan runs, some slot it has not passed is Idle. -/
  scan : s.phase.scanning = true →
    ∃ q, inPool q = true ∧ s.slot.toNat ≤ q.toNat ∧ s.slotState q = .idle
  /-- R40: no pool slot is Foreign. -/
  noForeign : ∀ q, inPool q = true → s.slotState q ≠ .foreign
  /-- R171: every armed slot was armed by the block. -/
  armed : ∀ q, inPool q = true → conmob (s.mob q).cdmob = 0b01#2 → ArmedMailbox p (s.mob q)
  /-- R269: every armed slot has its completion interrupt enabled. -/
  ie : ∀ q, inPool q = true → conmob (s.mob q).cdmob = 0b01#2 → ieBit s.canie1 q = true
  /-- R195: every frame sent was the block's. -/
  bus : ∀ f ∈ s.bus, GoodFrame p f

/-! ## The life cycle of a slot (R199) -/

/-- The transitions of R199, a slot that does not move among them. -/
def lifeCycle : SlotState → SlotState → Bool
  | .idle, .claimed => true
  | .claimed, .inFlight => true
  | .inFlight, .completed => true
  | .completed, .idle => true
  | a, b => a == b

/-- Which turn may move slot `q` out of a state: FG's, CTRL's for `q`, or a RECLAIM of `q` on the IRQ port (R199). -/
def mover (q : Slot) : SlotState → Turn → Bool
  | .idle, .fg => true
  | .claimed, .fg => true
  | .inFlight, .ctrl r => r == q
  | .completed, .irq r => r == q
  | .completed, .irqPort w => decode .irq w == .cmd (.reclaim q)
  | _, _ => false

/-- The next turn is an accepted RECLAIM of slot `q`: the IRQ agent's, for a pending slot, or the word fed to the IRQ port;
it passes R191's check (R190, R192). -/
def Reclaims (p : Params) (s : State) (q : Slot) : Prop :=
  ((nextTurn p s = .irq q ∧ s.irqEnabled q = true) ∨
    ∃ w, nextTurn p s = .irqPort w ∧ decode .irq w = .cmd (.reclaim q)) ∧
  s.reclaimCheck q = none

/-! ## The order of the micro-steps (R150) -/

/-- The phases that may follow a phase when FG runs its micro-step in a SEND of `len` payload bytes: R150's list, with the
spin of POLL (R151), the loop of the scan (R153) and the return to IDLE of an exhausted one (R154). The payload phases are
WRPAY(0) to WRPAY(len - 1), and absent when `len` = 0. -/
def Phase.follows (len : BitVec 3) : Phase → Phase → Bool
  | .poll, .poll | .poll, .scanPage => true
  | .scanPage, .scanTest => true
  | .scanTest, .scanPage | .scanTest, .clrRead | .scanTest, .idle => true
  | .clrRead, .clrWrite => true
  | .clrWrite, .claim => true
  | .claim, .page => true
  | .page, .wrid1 => true
  | .wrid1, .wrid2 => true
  | .wrid2, .wrid3 => true
  | .wrid3, .wrid4 => true
  | .wrid4, .wrhdr k => k == 0
  | .wrhdr k, .wrhdr j => decide (j.val = k.val + 1)
  | .wrhdr k, .wrpay j => k == 3 && j == 0 && decide (0 < len.toNat)
  | .wrhdr k, .enieRead => k == 3 && decide (len.toNat = 0)
  | .wrpay k, .wrpay j => decide (j.val = k.val + 1 ∧ j.val < len.toNat)
  | .wrpay k, .enieRead => decide (k.val + 1 = len.toNat)
  | .enieRead, .enieWrite => true
  | .enieWrite, .arm => true
  | .arm, .done => true
  | .done, .idle => true
  | _, _ => false

/-- FG's micro-steps still to come before IDLE at most, once POLL has read a non-zero counter (R269: at most 34). -/
def State.stepsLeft (s : State) : Nat :=
  match s.phase with
  | .idle => 0
  | .poll => 35
  | .scanPage => 2 * (14 - s.slot.toNat) + 18 + s.len.toNat
  | .scanTest => 2 * (14 - s.slot.toNat) + 17 + s.len.toNat
  | .clrRead => 16 + s.len.toNat
  | .clrWrite => 15 + s.len.toNat
  | .claim => 14 + s.len.toNat
  | .page => 13 + s.len.toNat
  | .wrid1 => 12 + s.len.toNat
  | .wrid2 => 11 + s.len.toNat
  | .wrid3 => 10 + s.len.toNat
  | .wrid4 => 9 + s.len.toNat
  | .wrhdr k => 8 - k.val + s.len.toNat
  | .wrpay k => 4 + (s.len.toNat - k.val)
  | .enieRead => 4
  | .enieWrite => 3
  | .arm => 2
  | .done => 1

/-! ## Running FG alone, and runs of the machine -/

/-- `n` micro-steps of FG with no other agent's step between them. -/
def fgRun (p : Params) : Nat → State → State
  | 0, s => s
  | n + 1, s => fgRun p n (fgMicro p s)

/-- The data bytes of the mailbox a SEND has framed (R171): the first 4 + len are the frame's, the rest are unchanged. -/
def framedMsg (p : Params) (s : State) (old : Vector Byte 8) : Vector Byte 8 :=
  Vector.ofFn (fun j : Fin 8 => if j.val < 4 + s.len.toNat then frameByte p s j else old[j])

/-- The mailbox a SEND leaves armed (R171). -/
def framedMailbox (p : Params) (s : State) (x : Mailbox) : Mailbox :=
  { stmob := 0x00#8, cdmob := armValue s.len, idt1 := idt1Value p.bootCanId, idt2 := idt2Value p.bootCanId,
    idt3 := 0x00#8, idt4 := 0x00#8, msg := framedMsg p s x.msg }

/-- `r` is a run of the machine with parameters `p`. -/
def IsRun (p : Params) (r : Nat → State) : Prop := ∀ n, stepWith p (r n) = .next (r (n + 1))

/-- FAIR_CTRL (R268): every slot that stays InFlight with TXOK = 0 is eventually transmitted. -/
def FairCtrl (r : Nat → State) : Prop := ∀ n q, (r n).armed q = true → ∃ m, n ≤ m ∧ (r m).armed q = false

/-- FAIR_IRQ (R268): while `gie` = 1, every pending pool slot is eventually reclaimed. -/
def FairIrq (r : Nat → State) : Prop :=
  ∀ n q, inPool q = true → (r n).pending q = true → (∀ m, n ≤ m → (r m).gie = true) →
    ∃ m, n ≤ m ∧ (r m).pending q = false

/-- Weak fairness of the scheduler (R268): an FG micro-step that stays enabled is eventually taken. -/
def FairFg (p : Params) (r : Nat → State) : Prop :=
  ∀ n, ∃ m, n ≤ m ∧ ((r m).phase = .idle ∨ nextTurn p (r m) = .fg)

/-- The fairness a run has under the parameters FAIR_CTRL and FAIR_IRQ (R9, R268). -/
structure Fair (p : Params) (r : Nat → State) : Prop where
  ctrl : p.fairCtrl = true → FairCtrl r
  irq : p.fairIrq = true → FairIrq r
  fg : FairFg p r

end Sys2Proof.Machine
end

