-- ==== Sys2Proof/Certificates/Slice0/Obligations.lean ====
section
/-! DEFINITION. The statements for the provers, from the spec's numbered rules. Each docstring names the rule. `p` ranges
over the open parameters (00_scope R9); `step` is the machine with parameters nothing is known of. A state's turn is
`nextTurn Config.params s`; `s.begun` is `s` with that turn taken and the step counted (R13). -/

open Sys2Proof Sys2Proof.Machine

/-! ## Encoding (30_encoding) -/

/-- R101, R106: command words written out from the patterns decode to what 95_test_vectors V3 says, on their port. -/
def Obligations.TableWordsDecode : Prop :=
  decode .fg 0x1FF4#16 = .cmd (.send 0xFF#8 4#3) ∧ decode .fg 0x1012#16 = .cmd (.send 0x01#8 2#3) ∧
  decode .fg 0x24BB#16 = .cmd (.stage 1#2 0xBB#8) ∧ decode .fg 0x2CFF#16 = .cmd (.stage 3#2 0xFF#8) ∧
  decode .fg 0x3010#16 = .cmd (.setseq 0x10#8) ∧ decode .fg 0x4020#16 = .cmd (.setdcnt 0x20#8) ∧
  decode .irq 0x800E#16 = .cmd (.reclaim 14#4) ∧ decode .fg 0x101D#16 = .illegal .reservedBits ∧
  decode .fg 0x8008#16 = .illegal .wrongPort ∧ decode .irq 0x1012#16 = .illegal .wrongPort ∧
  decode .fg 0x0000#16 = .illegal .reservedOpcode ∧ decode .irq 0x8018#16 = .illegal .reservedBits

/-- R101, R103, R105, R106: every command, with every operand at every value, decodes from its word on its own port, and
is refused as a wrong-port word on the other. -/
def Obligations.DecodeOfEncode : Prop :=
  ∀ (port : Port) (i : Instr),
    decode port i.encode = if i.port = port then .cmd i else .illegal .wrongPort

/-- R106, R108: a word that decodes to a command is that command's one encoding, on its port: no bit of it is dropped. -/
def Obligations.EncodeOfDecode : Prop :=
  ∀ (port : Port) (w : Word) (i : Instr), decode port w = .cmd i → i.encode = w ∧ i.port = port

/-- R109's matching rule: a word on a port is a command exactly when it matches a row of that port; otherwise it is
ILLEGAL. The rows are R109's columns port, match and mask. -/
def Obligations.LegalExactlyWhenARowMatches : Prop :=
  ∀ (port : Port) (w : Word),
    (∃ i, decode port w = .cmd i) ↔
      ∃ row ∈ ([(.fg, 0x1000#16, 0xF008#16), (.fg, 0x2000#16, 0xF300#16), (.fg, 0x3000#16, 0xFF00#16),
          (.fg, 0x4000#16, 0xFF00#16), (.irq, 0x8000#16, 0xFFF0#16)] : List (Port × Word × Word)),
        row.1 = port ∧ w &&& row.2.2 = row.2.1

/-! ## Reset and boot (70_reset_and_hazards) -/

/-- R250, R251: the fixed reset values, of `State.reset` and of a reset during a run. The unspecified values are not
constrained. -/
def Obligations.ResetGivesTheFixedValues : Prop :=
  IsReset State.reset ∧
  ∀ s : State, nextTurn Config.params s = .reset → ∃ t, step s = .next t ∧ IsReset t

/-- The sequencer's invariant holds at reset (base of SequencerInvariantKept). -/
def Obligations.ResetMeetsSequencerInvariant : Prop := SeqInv State.reset

/-- R218, R254, R255: from any state a reset can leave, the external initialisation (the model's turn `init`, log 20) gives
INIT_CLEAN, whatever it leaves in the free bits. -/
def Obligations.InitialisationGivesInitClean : Prop :=
  ∀ s : State, IsReset s → s.initialised = false → nextTurn Config.params s = .init →
    ∃ t, step s = .next t ∧ InitClean t ∧ t.canie1.getLsbD 7 = false

/-- R253, R254: INIT_CLEAN, with CANIE1's reserved bit reading 0 (R41), is where the launch invariant starts. -/
def Obligations.InitCleanGivesLaunchInvariant : Prop :=
  ∀ (p : Params) (s : State), InitClean s → s.canie1.getLsbD 7 = false → LaunchInv p s

/-! ## The staging commands (40_commands R132-R134) -/

/-- R132, R133, R134: each command's word, laid out as the rule's encoding says, is that command; and its effect, with the
whole frame: nothing but the staging register and its written bit changes. -/
def Obligations.StagingCommandsWriteTheirByte : Prop :=
  ∀ (idx : BitVec 2) (byte : Byte) (s : State), s.phase = .idle →
    decode .fg (0b0010#4 ++ idx ++ 0b00#2 ++ byte) = .cmd (.stage idx byte) ∧
    decode .fg (0b00110000#8 ++ byte) = .cmd (.setseq byte) ∧
    decode .fg (0b01000000#8 ++ byte) = .cmd (.setdcnt byte) ∧
    exec (.stage idx byte) s = .next { s with pay := s.pay.set idx.toNat ⟨byte, true⟩ idx.isLt } ∧
    exec (.setseq byte) s = .next { s with seq := ⟨byte, true⟩ } ∧
    exec (.setdcnt byte) s = .next { s with dcnt := ⟨byte, true⟩ }

/-- The frame of the staging commands in every phase (R130, R132-R134): each changes its own staging registers at most,
and the other payload bytes, `phase`, `fault`, the counter, every controller register and the bus log stay. -/
def Obligations.StagingCommandsFrame : Prop :=
  ∀ (i : Instr) (s t : State), (∃ idx b, i = .stage idx b) ∨ (∃ b, i = .setseq b) ∨ (∃ b, i = .setdcnt b) →
    exec i s = .next t →
    t.freeCount = s.freeCount ∧ t.phase = s.phase ∧ t.slot = s.slot ∧ t.claimed = s.claimed ∧ t.ty = s.ty ∧
    t.len = s.len ∧ t.fault = s.fault ∧ t.gie = s.gie ∧ t.tmp = s.tmp ∧ t.canpage = s.canpage ∧
    t.canie1 = s.canie1 ∧ t.canie2 = s.canie2 ∧ (∀ q, t.mob q = s.mob q) ∧ t.other = s.other ∧ t.bus = s.bus ∧
    ((∀ b, i ≠ .setseq b) → t.seq = s.seq) ∧ ((∀ b, i ≠ .setdcnt b) → t.dcnt = s.dcnt) ∧
    ∀ k : Fin 4, (∀ idx b, i = .stage idx b → idx.toNat ≠ k.val) → t.pay[k] = s.pay[k]

/-! ## SEND's acceptance (R135, R136) -/

/-- R135: with LEN at most 4 and every byte it needs staged, SEND latches its operands and goes to POLL; nothing else
changes. -/
def Obligations.SendIsAccepted : Prop :=
  ∀ (ty : Byte) (len : BitVec 3) (s : State), s.phase = .idle → len.toNat ≤ 4 → s.seq.w = true → s.dcnt.w = true →
    (∀ k : Fin 4, k.val < len.toNat → (s.pay[k]).w = true) →
    exec (.send ty len) s = .next { s with ty := ty, len := len, phase := .poll }

/-- R136, in its order: LEN above 4 is ERR_LENGTH whatever is staged; then SEQ or DCNT unwritten, then a payload byte
unwritten, is ERR_UNSTAGED. A refused SEND changes nothing but the fault record. -/
def Obligations.SendIsRefusedInOrder : Prop :=
  ∀ (ty : Byte) (len : BitVec 3) (s : State), s.phase = .idle →
    (4 < len.toNat →
      exec (.send ty len) s = .next (s.raise .errLength .fg (Instr.send ty len).encode)) ∧
    (len.toNat ≤ 4 → s.seq.w = false ∨ s.dcnt.w = false →
      exec (.send ty len) s = .next (s.raise .errUnstaged .fg (Instr.send ty len).encode)) ∧
    (len.toNat ≤ 4 → s.seq.w = true → s.dcnt.w = true → (∃ k : Fin 4, k.val < len.toNat ∧ (s.pay[k]).w = false) →
      exec (.send ty len) s = .next (s.raise .errUnstaged .fg (Instr.send ty len).encode))

/-! ## RECLAIM (42_reclaim R190, R191, R193) -/

/-- R190, R193: the RECLAIM word on the IRQ port is RECLAIM, and RECLAIM of a completed in-flight pool slot idles it, ends its interrupt and increments the counter; every
other mailbox and register, CANPAGE and CANIE1 among them, stays. It runs in every phase. -/
def Obligations.ReclaimReleasesTheSlot : Prop :=
  ∀ (q : Slot) (s : State), inPool q = true → conmob (s.mob q).cdmob = 0b01#2 → txok (s.mob q).stmob = true →
    s.freeCount ≠ 7#8 →
    decode .irq (0b100000000000#12 ++ q) = .cmd (.reclaim q) ∧
    ∃ t, exec (.reclaim q) s = .next t ∧
      t = { s with freeCount := s.freeCount + 1#8, mobs := t.mobs } ∧
      t.mob q = { s.mob q with cdmob := 0x00#8, stmob := 0x00#8 } ∧ ∀ r, r ≠ q → t.mob r = s.mob r

/-- R191, in its order: range, state, counter. A refused RECLAIM changes nothing but the fault record. -/
def Obligations.ReclaimIsRefusedInOrder : Prop :=
  ∀ (q : Slot) (s : State),
    (q.toNat < 8 ∨ 14 < q.toNat →
      exec (.reclaim q) s = .next (s.raise .errSlot .irq (Instr.reclaim q).encode)) ∧
    (inPool q = true → conmob (s.mob q).cdmob ≠ 0b01#2 ∨ txok (s.mob q).stmob = false →
      exec (.reclaim q) s = .next (s.raise .errSlot .irq (Instr.reclaim q).encode)) ∧
    (inPool q = true → conmob (s.mob q).cdmob = 0b01#2 → txok (s.mob q).stmob = true → s.freeCount = 7#8 →
      exec (.reclaim q) s = .next (s.raise .errOverflow .irq (Instr.reclaim q).encode))

/-- R265 (H10): after a RECLAIM that succeeded, the same RECLAIM is refused with ERR_SLOT. -/
def Obligations.SecondReclaimIsRefused : Prop :=
  ∀ (q : Slot) (s : State), s.reclaimCheck q = none →
    ∃ t, exec (.reclaim q) s = .next t ∧
      exec (.reclaim q) t = .next (t.raise .errSlot .irq (Instr.reclaim q).encode)

/-! ## Ports, faults and HOST (R130, R131, R139, 60_exceptions) -/

/-- R130: while FG is busy the FG port holds: no FG command has an effect, and HOST's operation waits at the port. That one
which waits already keeps the place is the model's reading (DEDUCED: log 4). -/
def Obligations.BusyFgPortHolds : Prop :=
  ∀ s : State, s.phase ≠ .idle →
    (∀ i : Instr, i.port = .fg → exec i s = .next s) ∧
    ∀ op : HostOp, nextTurn Config.params s = .host op → step s = .next { s.pop with held := some (s.held.getD op) }

/-- A step runs the decoded command (R100, R131): HOST's word when FG is idle; a word on the IRQ port in any phase (R192).
The model's reading, which these rules do not say (DEDUCED: log 4): where a word waits at the FG port, it is that one which
runs and not the turn's own operation, and `hold none` then empties the waiting place. Turns: log 2; the IRQ word: log 14. -/
def Obligations.StepRunsTheDecodedCommand : Prop :=
  ∀ (s : State) (w : Word) (i : Instr),
    (∀ op, nextTurn Config.params s = .host op → s.held.getD op = .issue w → s.phase = .idle →
      decode .fg w = .cmd i → step s = exec i (s.begun.hold none)) ∧
    (nextTurn Config.params s = .irqPort w → decode .irq w = .cmd i → step s = exec i s.begun)

/-- A table word placed as the next thing that happens runs as its command (R100; log 3): on the FG port with FG idle and
nothing else waiting, or on the IRQ port. -/
def Obligations.PlacedWordRunsNext : Prop :=
  ∀ (s : State) (nbits w : Nat) (i : Instr), decodeTableWord nbits w = some i →
    ∃ s₀, step (s.withFetchWord nbits w) = exec i s₀ ∧
      s₀ = { s with ticks := s.ticks + 1, steps := s.steps + 1,
                    phase := if i.port = .fg then .idle else s.phase,
                    held := if i.port = .fg then none else s.held }

/-- R106, R131, R212: an ILLEGAL word on either port records ERR_ILLEGAL and has no other effect. The model's reading
(DEDUCED: log 4): where a word waits at the FG port, it goes before the turn's own operation, and its turn empties the
waiting place. Turns: log 2; the IRQ word: log 14. -/
def Obligations.IllegalWordOnlyRecordsAFault : Prop :=
  ∀ (s : State) (w : Word) (why : Illegal),
    (∀ op, nextTurn Config.params s = .host op → s.held.getD op = .issue w → s.phase = .idle →
      decode .fg w = .illegal why → step s = .next ((s.begun.hold none).raise .errIllegal .fg w)) ∧
    (nextTurn Config.params s = .irqPort w → decode .irq w = .illegal why →
      step s = .next (s.begun.raise .errIllegal .irq w))

/-- R213: the record is written only when none stands, and nothing but reset clears it. -/
def Obligations.FirstFaultIsKept : Prop :=
  (∀ (s : State) (c : Fault) (port : Port) (w : Word),
    (s.fault = none → s.raise c port w = { s with fault := some ⟨c, port, w⟩ }) ∧
    (s.fault ≠ none → s.raise c port w = s)) ∧
  ∀ (s t : State) (r : FaultRecord), s.fault = some r → nextTurn Config.params s ≠ .reset → step s = .next t →
    t.fault = some r

/-- R13, R210, R214: no state stops the machine: every step has a next state. -/
def Obligations.EveryStepHasANextState : Prop := ∀ s : State, ∃ t, step s = .next t

/-- R139: HOST writes `gie` while FG is idle, and nothing else changes; while FG is busy the write waits. That one which waited
already goes first is the model's reading (DEDUCED: log 4). -/
def Obligations.HostWritesGie : Prop :=
  ∀ (s : State) (b : Bool) (op : HostOp), nextTurn Config.params s = .host op → s.held.getD op = .setGie b →
    (s.phase = .idle → step s = .next { s.begun with gie := b, held := none }) ∧
    (s.phase ≠ .idle → step s = .next { s.pop with held := some (.setGie b) })

/-! ## IRQ and CTRL (42_reclaim R192, R195, R198) -/

/-- R192: the IRQ agent issues RECLAIM q exactly when `gie` = 1 and pool slot q is pending (TXOK and its enable bit), and
holds otherwise. -/
def Obligations.IrqServesOnlyPendingSlots : Prop :=
  ∀ (s : State) (q : Slot), nextTurn Config.params s = .irq q →
    (s.gie = true ∧ inPool q = true ∧ txok (s.mob q).stmob = true ∧ ieBit s.canie1 q = true →
      step s = exec (.reclaim q) s.begun) ∧
    (¬ (s.gie = true ∧ inPool q = true ∧ txok (s.mob q).stmob = true ∧ ieBit s.canie1 q = true) →
      step s = .next s.pop)

/-- R195, R198: TX of an armed standard data mailbox appends the frame its registers hold and sets TXOK; no other bit of
its registers, no other mailbox, no other state changes. -/
def Obligations.TransmitSendsTheFrame : Prop :=
  ∀ (s : State) (q : Slot), nextTurn Config.params s = .ctrl q → inPool q = true →
    conmob (s.mob q).cdmob = 0b01#2 → txok (s.mob q).stmob = false → ide (s.mob q).cdmob = false →
    rtrtag (s.mob q).idt4 = false →
    ∃ t, step s = .next t ∧
      t = { s.begun with
            mobs := t.mobs
            bus := s.bus ++ [{ id := (s.mob q).idt1 ++ (s.mob q).idt2.extractLsb' 5 3
                               dlc := (s.mob q).cdmob.extractLsb' 0 4
                               bytes := (s.mob q).msg.toList.take
                                 (min ((s.mob q).cdmob.extractLsb' 0 4).toNat 8) }] } ∧
      t.mob q = { s.mob q with stmob := (s.mob q).stmob ||| 0x40#8 } ∧ ∀ r, r ≠ q → t.mob r = s.mob r

/-- R195: CTRL has no step for a slot outside the pool, a slot that is not armed, or one already transmitted; and, the
model's choice where R195 lets it refuse (log 17), none for IDE = 1 or RTRTAG = 1. -/
def Obligations.TransmitHoldsOtherwise : Prop :=
  ∀ (s : State) (q : Slot), nextTurn Config.params s = .ctrl q →
    inPool q = false ∨ conmob (s.mob q).cdmob ≠ 0b01#2 ∨ txok (s.mob q).stmob = true ∨
      ide (s.mob q).cdmob = true ∨ rtrtag (s.mob q).idt4 = true →
    step s = .next s.pop

/-! ## The micro-steps of SEND (41_send_sequencer) -/

/-- R10, R13: FG's turn runs the micro-step of its phase; in IDLE it holds. -/
def Obligations.FgTurnRunsOneMicroStep : Prop :=
  ∀ s : State, nextTurn Config.params s = .fg →
    (s.phase = .idle → step s = .next s.pop) ∧
    (s.phase ≠ .idle → step s = .next (fgMicro Config.params s.begun))

/-- R151: POLL spins while the counter is zero, and otherwise starts the scan at slot 8. -/
def Obligations.PollSpinsOrStartsTheScan : Prop :=
  ∀ (p : Params) (s : State), s.phase = .poll →
    (s.freeCount = 0#8 → fgMicro p s = s) ∧
    (s.freeCount ≠ 0#8 → fgMicro p s = { s with slot := 8#4, phase := .scanPage })

/-- R152, R160: SCAN_PAGE and PAGE write CANPAGE = s << 4: MOBNB = s, AINC = 0, INDX = 0. -/
def Obligations.PageOfTheSlotIsSelected : Prop :=
  ∀ (p : Params) (s : State),
    (s.phase = .scanPage → fgMicro p s = { s with canpage := s.slot.setWidth 8 <<< 4, phase := .scanTest }) ∧
    (s.phase = .page → fgMicro p s = { s with canpage := s.slot.setWidth 8 <<< 4, phase := .wrid1 })

/-- R153, R154: SCAN_TEST tests only the two in-use bits: a free slot is found, the next slot is tried, and slot 14 in use
is ERR_NOSLOT (recorded with the word of the SEND) with FG back in IDLE and nothing claimed. -/
def Obligations.ScanTestOutcomes : Prop :=
  ∀ (p : Params) (s : State), s.phase = .scanTest → mobnb s.canpage ≠ 15#4 →
    ((s.mob (mobnb s.canpage)).cdmob.extractLsb' 6 2 = 0b00#2 → fgMicro p s = { s with phase := .clrRead }) ∧
    ((s.mob (mobnb s.canpage)).cdmob.extractLsb' 6 2 ≠ 0b00#2 → s.slot.toNat < 14 →
      fgMicro p s = { s with slot := s.slot + 1#4, phase := .scanPage }) ∧
    ((s.mob (mobnb s.canpage)).cdmob.extractLsb' 6 2 ≠ 0b00#2 → 14 ≤ s.slot.toNat →
      fgMicro p s =
        { s with phase := .idle
                 fault := some (s.fault.getD ⟨.errNoslot, .fg, (Instr.send s.ty s.len).encode⟩) })

/-- R157, R158: the read changes nothing but the phase; the write clears the selected mailbox's whole status. -/
def Obligations.StatusIsReadThenCleared : Prop :=
  ∀ (p : Params) (s : State), mobnb s.canpage ≠ 15#4 →
    (s.phase = .clrRead → fgMicro p s = { s with phase := .clrWrite }) ∧
    (s.phase = .clrWrite → fgMicro p s =
      { s with phase := .claim
               mobs := mobSet s.mobs (mobnb s.canpage) { s.mob (mobnb s.canpage) with stmob := 0x00#8 } })

/-- R159: CLAIM decrements the counter and takes the ownership mark in one step; with the counter at zero, in states no
run reaches, it records ERR_NOSLOT and returns to IDLE. -/
def Obligations.ClaimDecrementsAndOwns : Prop :=
  ∀ (p : Params) (s : State), s.phase = .claim →
    (s.freeCount ≠ 0#8 → fgMicro p s =
      { s with freeCount := s.freeCount - 1#8, claimed := some s.slot, phase := .page }) ∧
    (s.freeCount = 0#8 → fgMicro p s =
      { s with phase := .idle
               fault := some (s.fault.getD ⟨.errNoslot, .fg, (Instr.send s.ty s.len).encode⟩) })

/-- R161-R164: the four identifier registers of the selected mailbox, one micro-step each. -/
def Obligations.IdentifierRegistersAreWritten : Prop :=
  ∀ (p : Params) (s : State), mobnb s.canpage ≠ 15#4 →
    (s.phase = .wrid1 → fgMicro p s =
      { s with phase := .wrid2
               mobs := mobSet s.mobs (mobnb s.canpage)
                 { s.mob (mobnb s.canpage) with idt1 := p.bootCanId.extractLsb' 3 8 } }) ∧
    (s.phase = .wrid2 → fgMicro p s =
      { s with phase := .wrid3
               mobs := mobSet s.mobs (mobnb s.canpage)
                 { s.mob (mobnb s.canpage) with idt2 := p.bootCanId.extractLsb' 0 3 ++ 0b00000#5 } }) ∧
    (s.phase = .wrid3 → fgMicro p s =
      { s with phase := .wrid4
               mobs := mobSet s.mobs (mobnb s.canpage) { s.mob (mobnb s.canpage) with idt3 := 0x00#8 } }) ∧
    (s.phase = .wrid4 → fgMicro p s =
      { s with phase := .wrhdr 0
               mobs := mobSet s.mobs (mobnb s.canpage) { s.mob (mobnb s.canpage) with idt4 := 0x00#8 } })

/-- R165: header byte k of [BOARD_ID, type, SEQ, DCNT] goes to the selected mailbox at INDX, which then advances
as R75 says, and FG goes to the next header byte, the payload, or ENIE_READ. -/
def Obligations.HeaderByteIsWritten : Prop :=
  ∀ (p : Params) (s : State) (k : Fin 4), s.phase = .wrhdr k → mobnb s.canpage ≠ 15#4 →
    fgMicro p s =
      { s with
        phase := if k.val < 3 then .wrhdr (k + 1) else if 0 < s.len.toNat then .wrpay 0 else .enieRead
        canpage := if ainc s.canpage = true then s.canpage else mobnb s.canpage ++ 0#1 ++ (indx s.canpage + 1#3)
        mobs := mobSet s.mobs (mobnb s.canpage)
          { s.mob (mobnb s.canpage) with
            msg := (s.mob (mobnb s.canpage)).msg.set (indx s.canpage).toNat
              (#v[p.boardId, s.ty, s.seq.val, s.dcnt.val][k]) (indx s.canpage).isLt } }

/-- R166: payload byte k likewise; after the last, FG goes to ENIE_READ. (`len` is at most 4: SEND accepts no more.) -/
def Obligations.PayloadByteIsWritten : Prop :=
  ∀ (p : Params) (s : State) (k : Fin 4), s.phase = .wrpay k → s.len.toNat ≤ 4 → mobnb s.canpage ≠ 15#4 →
    fgMicro p s =
      { s with
        phase := if k.val + 1 < s.len.toNat then .wrpay (k + 1) else .enieRead
        canpage := if ainc s.canpage = true then s.canpage else mobnb s.canpage ++ 0#1 ++ (indx s.canpage + 1#3)
        mobs := mobSet s.mobs (mobnb s.canpage)
          { s.mob (mobnb s.canpage) with
            msg := (s.mob (mobnb s.canpage)).msg.set (indx s.canpage).toNat (s.pay[k]).val (indx s.canpage).isLt } }

/-- R167, R168 (with R41 and R78: bit 7 reads 0 and is not written): t <- CANIE1, then CANIE1 <- t | (1 << (s - 8)). -/
def Obligations.CompletionInterruptIsEnabled : Prop :=
  ∀ (p : Params) (s : State),
    (s.phase = .enieRead → fgMicro p s = { s with tmp := s.canie1 &&& 0x7F#8, phase := .enieWrite }) ∧
    (s.phase = .enieWrite → inPool s.slot = true → fgMicro p s =
      { s with canie1 := (s.tmp ||| (1#8 <<< (s.slot.toNat - 8))) &&& 0x7F#8, phase := .arm })

/-- R169: ARM writes 0x40 | (len + 4) to the selected mailbox's control register and gives up the ownership mark, in one
step; R170: DONE then returns to IDLE. -/
def Obligations.ArmPublishesTheMailboxAndDoneReturns : Prop :=
  ∀ (p : Params) (s : State),
    (s.phase = .arm → mobnb s.canpage ≠ 15#4 → fgMicro p s =
      { s with
        claimed := none, phase := .done
        mobs := mobSet s.mobs (mobnb s.canpage)
          { s.mob (mobnb s.canpage) with cdmob := 0x40#8 ||| BitVec.ofNat 8 (s.len.toNat + 4) } }) ∧
    (s.phase = .done → fgMicro p s = { s with phase := .idle })

/-- R74: a paged access while MOBNB = 15, which no reachable state makes, is ERR_ILLEGAL (recorded with the word of the
SEND) and has no further effect. -/
def Obligations.PageFifteenIsIllegal : Prop :=
  ∀ (p : Params) (s : State), mobnb s.canpage = 15#4 →
    s.phase ∈ [.scanTest, .clrRead, .clrWrite, .wrid1, .wrid2, .wrid3, .wrid4, .wrhdr 0, .wrhdr 1, .wrhdr 2, .wrhdr 3,
      .wrpay 0, .wrpay 1, .wrpay 2, .wrpay 3, .arm] →
    fgMicro p s =
      { s with fault := some (s.fault.getD ⟨.errIllegal, .fg, (Instr.send s.ty s.len).encode⟩) }

/-- R75: a CANMSG access, a read as well as a write, advances INDX modulo 8 when AINC = 0 and leaves it when AINC = 1;
MOBNB and AINC stay either way. A write stores its byte where the cursor stood, a read gives that byte; nothing else
changes. -/
def Obligations.CanmsgAccessMovesTheCursor : Prop :=
  ∀ (s : State) (v : Byte), mobnb s.canpage ≠ 15#4 →
    (∃ t, s.regWrite v .canmsg = some t ∧
      t = { s with
            canpage := t.canpage
            mobs := mobSet s.mobs (mobnb s.canpage)
              { s.mob (mobnb s.canpage) with
                msg := (s.mob (mobnb s.canpage)).msg.set (indx s.canpage).toNat v (indx s.canpage).isLt } } ∧
      mobnb t.canpage = mobnb s.canpage ∧ ainc t.canpage = ainc s.canpage ∧
      (indx t.canpage).toNat =
        if ainc s.canpage = true then (indx s.canpage).toNat else ((indx s.canpage).toNat + 1) % 8) ∧
    (∃ b t, s.regRead .canmsg = some (b, t) ∧
      b = (s.mob (mobnb s.canpage)).msg[(indx s.canpage).toNat]'(indx s.canpage).isLt ∧
      t = { s with canpage := t.canpage } ∧ mobnb t.canpage = mobnb s.canpage ∧ ainc t.canpage = ainc s.canpage ∧
      (indx t.canpage).toNat =
        if ainc s.canpage = true then (indx s.canpage).toNat else ((indx s.canpage).toNat + 1) % 8)

/-- R150: FG's micro-steps follow one another only in the order of R150, each phase as often as R150 lists it for this `len`:
WRPAY(0) to WRPAY(len - 1) and no other, none when `len` = 0. POLL may repeat (R151), the scan loops (R153) and returns to
IDLE when it is exhausted (R154). -/
def Obligations.MicroStepsFollowTheOrder : Prop :=
  ∀ (p : Params) (s : State), SeqInv s → s.phase ≠ .idle →
    Phase.follows s.len s.phase (fgMicro p s).phase = true

/-! ## Whole-machine rules -/

/-- The sequencer's invariant (R21, R23, R25, R41, R47 and the facts the corner cases of R151-R169 rest on) is kept by
every step of every agent, reset and initialisation among them. -/
def Obligations.SequencerInvariantKept : Prop :=
  ∀ s t : State, SeqInv s → step s = .next t → SeqInv t

/-- The launch invariant (R46, R156, R171, R199, R269) is kept by every step but a reset. -/
def Obligations.LaunchInvariantKept : Prop :=
  ∀ s t : State, LaunchInv Config.params s → nextTurn Config.params s ≠ .reset → step s = .next t →
    LaunchInv Config.params t

/-- R21: in every run from reset, under every interleaving, the counter stays in 0..7 and CLAIM never meets it at 0. -/
def Obligations.CounterStaysInRange : Prop :=
  ∀ (p : Params) (r : Nat → State), IsRun p r → IsReset (r 0) →
    ∀ n, (r n).freeCount.toNat ≤ 7 ∧ ((r n).phase = .claim → 1 ≤ (r n).freeCount.toNat)

/-- R46: in every run from a launch, the counter equals the number of Idle slots at every step boundary. -/
def Obligations.CounterEqualsIdleSlots : Prop :=
  ∀ (p : Params) (r : Nat → State), IsRun p r → InitClean (r 0) → (r 0).canie1.getLsbD 7 = false →
    (∀ n, nextTurn p (r n) ≠ .reset) →
    ∀ n, (r n).freeCount.toNat =
      ([8#4, 9#4, 10#4, 11#4, 12#4, 13#4, 14#4].filter (fun q => (r n).slotState q = .idle)).length

/-- R47: in every run from reset, at most one slot is Claimed; the slot in `claimed` has CONMOB = 0b00; while `claimed` is
set, FG is between PAGE and ARM and `s` is that slot. -/
def Obligations.OwnershipInvariant : Prop :=
  ∀ (p : Params) (r : Nat → State), IsRun p r → IsReset (r 0) → ∀ n,
    (∀ a b, (r n).slotState a = .claimed → (r n).slotState b = .claimed → a = b) ∧
    ∀ q, (r n).claimed = some q →
      conmob ((r n).mob q).cdmob = 0b00#2 ∧ (r n).slot = q ∧ inPool q = true ∧ (r n).phase.owned = true

/-- R156: from a state of a launched run, no step raises ERR_NOSLOT: the scan always finds a slot. -/
def Obligations.ScanAlwaysFindsASlot : Prop :=
  ∀ s t : State, LaunchInv Config.params s → nextTurn Config.params s ≠ .reset → step s = .next t →
    s.fault = none → ∀ r, t.fault = some r → r.code ≠ .errNoslot

/-- R263 (with R20, R84, R222): the counter is changed by CLAIM, which decrements it and takes the ownership mark in the same
step, and by an accepted RECLAIM, which increments it and idles its slot in the same step, and by no other step (reset
apart): an ILLEGAL word or a refused RECLAIM on the IRQ port leaves it. -/
def Obligations.OnlyClaimAndReclaimMoveTheCounter : Prop :=
  ∀ s t : State, nextTurn Config.params s ≠ .reset → step s = .next t →
    t.freeCount = s.freeCount ∨
    (nextTurn Config.params s = .fg ∧ s.phase = .claim ∧ s.freeCount ≠ 0#8 ∧ t.freeCount = s.freeCount - 1#8 ∧
      t.claimed = some s.slot) ∨
    ∃ q, Reclaims Config.params s q ∧ s.freeCount ≠ 7#8 ∧ t.freeCount = s.freeCount + 1#8 ∧
      (t.mob q).cdmob = 0x00#8 ∧ (t.mob q).stmob = 0x00#8

/-- R199: every slot moves only along Idle, Claimed, InFlight, Completed, Idle, one transition a step, each made by the
agent R199 names. -/
def Obligations.SlotsFollowTheLifeCycle : Prop :=
  ∀ (s t : State) (q : Slot), SeqInv s → s.initialised = true → nextTurn Config.params s ≠ .reset →
    step s = .next t → inPool q = true →
    lifeCycle (s.slotState q) (t.slotState q) = true ∧
    (t.slotState q ≠ s.slotState q → mover q (s.slotState q) (nextTurn Config.params s) = true)

/-- R258 (H3), C6: an armed slot's identifier, data and control registers are not written before an accepted RECLAIM of it;
CTRL may set its TXOK. -/
def Obligations.ArmedSlotIsNotTouched : Prop :=
  ∀ (s t : State) (q : Slot), SeqInv s → s.initialised = true → nextTurn Config.params s ≠ .reset →
    step s = .next t → inPool q = true → conmob (s.mob q).cdmob = 0b01#2 →
    t.mob q = s.mob q ∨
    (nextTurn Config.params s = .ctrl q ∧ t.mob q = { s.mob q with stmob := (s.mob q).stmob ||| 0x40#8 }) ∨
    (Reclaims Config.params s q ∧ t.freeCount = s.freeCount + 1#8 ∧
      t.mob q = { s.mob q with cdmob := 0x00#8, stmob := 0x00#8 })

/-- R260 (H5), R138, R25, R139: while a SEND is in progress no step but a reset changes the staging registers, the latched
operands or `gie`. -/
def Obligations.StagingIsStableDuringASend : Prop :=
  ∀ s t : State, s.phase ≠ .idle → nextTurn Config.params s ≠ .reset → step s = .next t →
    t.seq = s.seq ∧ t.dcnt = s.dcnt ∧ t.pay = s.pay ∧ t.ty = s.ty ∧ t.len = s.len ∧ t.gie = s.gie

/-- R193, R256, R259, R173: no turn of IRQ, CTRL or HOST changes CANPAGE, CANIE1, `s`, `claimed` or `t`, and none moves the
phase of a SEND in progress; under the block's invariant none touches the registers of the slot FG has found. -/
def Obligations.OtherAgentsLeaveTheSendAlone : Prop :=
  ∀ s t : State, SeqInv s → nextTurn Config.params s ≠ .fg → nextTurn Config.params s ≠ .init →
    nextTurn Config.params s ≠ .reset → step s = .next t →
    t.canpage = s.canpage ∧ t.canie1 = s.canie1 ∧ t.slot = s.slot ∧ t.claimed = s.claimed ∧ t.tmp = s.tmp ∧
    (s.phase ≠ .idle → t.phase = s.phase) ∧ (s.phase.found = true → t.mob s.slot = s.mob s.slot)

/-- R33, R41, R42: the block never writes mailboxes 0..7, CANIE2 or the controller's other registers; only reset and the
external initialisation do. -/
def Obligations.RegistersOutsideTheBlockAreLeftAlone : Prop :=
  ∀ s t : State, SeqInv s → nextTurn Config.params s ≠ .init → nextTurn Config.params s ≠ .reset →
    step s = .next t →
    t.other = s.other ∧ t.canie2 = s.canie2 ∧ ∀ q : Slot, q.toNat < 8 → t.mob q = s.mob q

/-- R45: only CTRL appends to the bus log, one frame at a time, and nothing but reset shortens it. -/
def Obligations.OnlyCtrlAppendsToTheBus : Prop :=
  ∀ s t : State, nextTurn Config.params s ≠ .reset → step s = .next t →
    t.bus = s.bus ∨ ∃ q f, nextTurn Config.params s = .ctrl q ∧ t.bus = s.bus ++ [f]

/-- R261 (H6): a SEND that polls a zero counter with `gie` = 0 stays in POLL under every turn but a word fed directly to
the IRQ port, and reset. -/
def Obligations.PollHangsWithoutInterrupts : Prop :=
  ∀ s t : State, s.phase = .poll → s.freeCount = 0#8 → s.gie = false →
    (∀ w, nextTurn Config.params s ≠ .irqPort w) → nextTurn Config.params s ≠ .reset → step s = .next t →
    t.phase = .poll ∧ t.freeCount = 0#8 ∧ t.gie = false

/-- R155, R171, R175: with no other agent's step in between, a SEND that POLL lets go (counter not 0) and whose lowest free
slot is `q` returns to IDLE after 2n + 17 + len micro-steps, n = q - 7 slots tested (2n + 14 + len register accesses,
POLL, CLAIM and DONE), and leaves exactly the frame of R171 in slot `q`. -/
def Obligations.SendArmsTheLowestFreeSlot : Prop :=
  ∀ (p : Params) (s : State) (q : Slot), s.phase = .poll → s.freeCount ≠ 0#8 → s.len.toNat ≤ 4 →
    inPool q = true → conmob (s.mob q).cdmob = 0b00#2 →
    (∀ a, inPool a = true → a.toNat < q.toNat → conmob (s.mob a).cdmob ≠ 0b00#2) →
    fgRun p (2 * (q.toNat - 7) + 17 + s.len.toNat) s =
      { s with
        phase := .idle, slot := q, freeCount := s.freeCount - 1#8, claimed := none
        tmp := s.canie1 &&& 0x7F#8
        canie1 := ((s.canie1 &&& 0x7F#8) ||| ieMask q) &&& 0x7F#8
        canpage := q ++ 0#1 ++ (s.len + 4#3)
        mobs := mobSet s.mobs q (framedMailbox p s (s.mob q)) }

/-- R171, R173: the frame under construction, byte by byte, stands under every interleaving: the invariant is kept by
every step of every agent. -/
def Obligations.FrameUnderConstructionStands : Prop :=
  ∀ s t : State, SeqInv s → FrameInv Config.params s → step s = .next t → FrameInv Config.params t

/-- R171, R195 (W1 of the vectors): in every run from a launch, every frame on the bus carries the bootloader's
identifier, a DLC of 4..8 equal to the number of its data bytes, and BOARD_ID first. -/
def Obligations.EveryFrameOnTheBusIsGood : Prop :=
  ∀ (p : Params) (r : Nat → State), IsRun p r → InitClean (r 0) → (r 0).canie1.getLsbD 7 = false →
    (∀ n, nextTurn p (r n) ≠ .reset) →
    ∀ n, ∀ f ∈ (r n).bus, f.id = p.bootCanId ∧ f.bytes.length = f.dlc.toNat ∧ 4 ≤ f.dlc.toNat ∧ f.dlc.toNat ≤ 8 ∧
      f.bytes.head? = some p.boardId

/-- R269's last step: once POLL has let go, each micro-step of FG brings IDLE strictly nearer, and at most 34 remain. -/
def Obligations.AtMostThirtyFourMicroSteps : Prop :=
  ∀ (p : Params) (s : State), SeqInv s → s.phase ≠ .idle → s.phase ≠ .poll →
    (fgMicro p s).stepsLeft < s.stepsLeft ∧ s.stepsLeft ≤ 34

/-- R269: from a launch, with no reset, with `gie` = 1, FAIR_CTRL, FAIR_IRQ and weak scheduler fairness, every accepted
SEND returns to IDLE. -/
def Obligations.SendReturnsUnderFairness : Prop :=
  ∀ (p : Params) (r : Nat → State) (n : Nat), IsRun p r → InitClean (r 0) → (r 0).canie1.getLsbD 7 = false →
    (∀ m, nextTurn p (r m) ≠ .reset) → p.fairCtrl = true → p.fairIrq = true → Fair p r → (r n).gie = true →
    ∃ m, n ≤ m ∧ (r m).phase = .idle

/-- R111: SENDMSG expands to STAGE 0.., SETSEQ, SETDCNT, SEND, in that order; more than four payload bytes is an assembly
error. -/
def Obligations.SendmsgExpands : Prop :=
  ∀ (type seq dcnt : Byte) (payload : List Byte),
    (payload.length ≤ 4 →
      (Asm.sendmsg type.toNat seq.toNat dcnt.toNat (payload.map BitVec.toNat)).expand =
        some ((payload.mapIdx fun k b => Instr.stage (BitVec.ofNat 2 k) b) ++
          [.setseq seq, .setdcnt dcnt, .send type (BitVec.ofNat 3 payload.length)])) ∧
    (4 < payload.length →
      (Asm.sendmsg type.toNat seq.toNat dcnt.toNat (payload.map BitVec.toNat)).expand = none)

/-- R218 with R192: after a launch the controller-level enables are on, so the IRQ agent issues RECLAIM q exactly when the
interrupt of pool slot q is pending, carried to the CPU by those enables, and not masked by `gie`; otherwise it holds. -/
def Obligations.IrqServesTheRoutedInterrupt : Prop :=
  ∀ (s : State) (q : Slot), LaunchInv Config.params s → nextTurn Config.params s = .irq q →
    (s.gie = true ∧ inPool q = true ∧ s.routed q = true → step s = exec (.reclaim q) s.begun) ∧
    (¬ (s.gie = true ∧ inPool q = true ∧ s.routed q = true) → step s = .next s.pop)
end

