-- ==== Sys2Proof/Laws/Fields.lean ====
section
/-! SUPPORT. The bit fields of the controller's registers: what the values the block writes read back as
(10_state R35-R41, 41_send_sequencer R172). -/

namespace Sys2Proof.Machine

/-! ## The pool -/

theorem inPool_iff {q : Slot} : inPool q = true ↔ 8 ≤ q.toNat ∧ q.toNat ≤ 14 := by
  simp [inPool, Config.slotFirst, Config.slotLast]

theorem inPool_lt {q : Slot} (h : inPool q = true) : q.toNat < Config.mobCount := by
  have := inPool_iff.mp h
  simp [Config.mobCount]; omega

theorem inPool_ne_absent {q : Slot} (h : inPool q = true) : q ≠ 15#4 := by
  rintro rfl; simp [inPool, Config.slotFirst, Config.slotLast] at h

theorem lt_mobCount_of_ne {q : Slot} (h : q ≠ 15#4) : q.toNat < Config.mobCount := by
  have : q.toNat ≠ 15 := fun e => h (BitVec.eq_of_toNat_eq e)
  have := q.isLt
  simp [Config.mobCount]; omega

theorem mem_poolSlots {q : Slot} : q ∈ poolSlots ↔ inPool q = true := by
  revert q; decide

/-! ## CANPAGE (R35, R75) -/

@[simp] theorem mobnb_pageValue (q : Slot) : mobnb (pageValue q) = q := by revert q; decide
@[simp] theorem ainc_pageValue (q : Slot) : ainc (pageValue q) = false := by revert q; decide
@[simp] theorem indx_pageValue (q : Slot) : indx (pageValue q) = 0#3 := by revert q; decide
@[simp] theorem mobnb_pageAfterMsg (b : Byte) : mobnb (pageAfterMsg b) = mobnb b := by revert b; decide
@[simp] theorem ainc_pageAfterMsg (b : Byte) : ainc (pageAfterMsg b) = ainc b := by revert b; decide
theorem indx_pageAfterMsg {b : Byte} (h : ainc b = false) : indx (pageAfterMsg b) = indx b + 1#3 := by
  revert b; decide

/-! ## CANCDMOB and CANSTMOB (R36, R37, R169) -/

@[simp] theorem conmob_zero : conmob 0x00#8 = 0b00#2 := rfl
@[simp] theorem conmob_zero_lit : conmob 0 = 0b00#2 := rfl
@[simp] theorem txok_zero : txok 0x00#8 = false := rfl
@[simp] theorem txok_setTxok (b : Byte) : txok (setTxok b) = true := by revert b; decide

theorem armValue_fields {len : BitVec 3} (h : len.toNat ≤ 4) :
    conmob (armValue len) = 0b01#2 ∧ ide (armValue len) = false ∧
      (dlcField (armValue len)).toNat = len.toNat + 4 := by
  revert len; decide

/-! ## CANGIE and CANGCON (R218, R255) -/

@[simp] theorem enit_setTxEnables (b : Byte) : enit (setTxEnables b) = true := by revert b; decide
@[simp] theorem entx_setTxEnables (b : Byte) : entx (setTxEnables b) = true := by revert b; decide
@[simp] theorem enaStb_setEnaStb (b : Byte) : enaStb (setEnaStb b) = true := by revert b; decide

/-! ## The identifier (R38, R172) -/

/-- R172: the split identifier reads back whole. -/
@[simp] theorem frameId_split (id : BitVec 11) : frameId (idt1Value id) (idt2Value id) = id := by
  apply BitVec.eq_of_getLsbD_eq
  intro i hi
  simp only [frameId, idt1Value, idt2Value, BitVec.getLsbD_append, BitVec.getLsbD_extractLsb']
  by_cases h : i < 3
  · have h8 : 5 + i < 8 := by omega
    simp [h, Nat.add_comm]
  · simp [h]
    have : i - 3 < 8 := by omega
    have e : 3 + (i - 3) = i := by omega
    simp [this, e]

/-! ## CANIE1 (R41, R168) -/

theorem ieBit_or_self {ie : Byte} {q : Slot} (h : inPool q = true) :
    ieBit ((ie ||| ieMask q) &&& 0x7F#8) q = true := by
  have hq : ∀ q : Slot, inPool q = true → ieBit (ieMask q &&& 0x7F#8) q = true := by decide
  have := hq q h
  simp only [ieBit] at this ⊢
  generalize (q - Config.slotFirst).toNat = i at *
  rw [BitVec.getLsbD_and, Bool.and_eq_true] at this
  rw [BitVec.getLsbD_and, BitVec.getLsbD_or, this.1, this.2, Bool.or_true, Bool.and_true]

theorem ieBit_or_mono {ie m : Byte} {q : Slot} (h : inPool q = true) (hb : ieBit ie q = true) :
    ieBit ((ie ||| m) &&& 0x7F#8) q = true := by
  have hq : ∀ q : Slot, inPool q = true → ieBit 0x7F#8 q = true := by decide
  have := hq q h
  simp only [ieBit] at this hb ⊢
  generalize (q - Config.slotFirst).toNat = i at *
  rw [BitVec.getLsbD_and, BitVec.getLsbD_or, hb, this, Bool.true_or, Bool.and_true]

@[simp] theorem reserved_and (b : Byte) : (b &&& 0x7F#8).getLsbD 7 = false := by
  simp

theorem and_eq_of_reserved {b : Byte} (h : b.getLsbD 7 = false) : b &&& 0x7F#8 = b := by
  revert b; decide

end Sys2Proof.Machine
end

