-- ==== Sys2Proof/Laws/State.lean ====
section
/-! SUPPORT. What each named update does to each field of State, once: one lemma a field an update, so that no later
proof unfolds a record update. -/

namespace Sys2Proof.Machine

/-- The one spelling of a mailbox's registers in proofs: `mobAt` of the mailboxes. -/
@[simp] theorem mob_eq (s : State) (q : Slot) : s.mob q = mobAt s.mobs q := rfl

/-! ## The turn taken -/

@[simp] theorem pop_freeCount (s : State) : (s.pop).freeCount = s.freeCount := rfl
@[simp] theorem pop_phase (s : State) : (s.pop).phase = s.phase := rfl
@[simp] theorem pop_slot (s : State) : (s.pop).slot = s.slot := rfl
@[simp] theorem pop_claimed (s : State) : (s.pop).claimed = s.claimed := rfl
@[simp] theorem pop_ty (s : State) : (s.pop).ty = s.ty := rfl
@[simp] theorem pop_len (s : State) : (s.pop).len = s.len := rfl
@[simp] theorem pop_seq (s : State) : (s.pop).seq = s.seq := rfl
@[simp] theorem pop_dcnt (s : State) : (s.pop).dcnt = s.dcnt := rfl
@[simp] theorem pop_pay (s : State) : (s.pop).pay = s.pay := rfl
@[simp] theorem pop_fault (s : State) : (s.pop).fault = s.fault := rfl
@[simp] theorem pop_gie (s : State) : (s.pop).gie = s.gie := rfl
@[simp] theorem pop_tmp (s : State) : (s.pop).tmp = s.tmp := rfl
@[simp] theorem pop_canpage (s : State) : (s.pop).canpage = s.canpage := rfl
@[simp] theorem pop_canie1 (s : State) : (s.pop).canie1 = s.canie1 := rfl
@[simp] theorem pop_canie2 (s : State) : (s.pop).canie2 = s.canie2 := rfl
@[simp] theorem pop_mobs (s : State) : (s.pop).mobs = s.mobs := rfl
@[simp] theorem pop_other (s : State) : (s.pop).other = s.other := rfl
@[simp] theorem pop_bus (s : State) : (s.pop).bus = s.bus := rfl
@[simp] theorem pop_held (s : State) : (s.pop).held = s.held := rfl
@[simp] theorem pop_steps (s : State) : (s.pop).steps = s.steps := rfl
@[simp] theorem pop_initialised (s : State) : (s.pop).initialised = s.initialised := rfl
@[simp] theorem pop_turns (s : State) : (s.pop).turns = s.turns.tail := rfl
@[simp] theorem pop_ticks (s : State) : (s.pop).ticks = s.ticks + 1 := rfl

/-! ## The step counted -/

@[simp] theorem count_freeCount (s : State) : (s.count).freeCount = s.freeCount := rfl
@[simp] theorem count_phase (s : State) : (s.count).phase = s.phase := rfl
@[simp] theorem count_slot (s : State) : (s.count).slot = s.slot := rfl
@[simp] theorem count_claimed (s : State) : (s.count).claimed = s.claimed := rfl
@[simp] theorem count_ty (s : State) : (s.count).ty = s.ty := rfl
@[simp] theorem count_len (s : State) : (s.count).len = s.len := rfl
@[simp] theorem count_seq (s : State) : (s.count).seq = s.seq := rfl
@[simp] theorem count_dcnt (s : State) : (s.count).dcnt = s.dcnt := rfl
@[simp] theorem count_pay (s : State) : (s.count).pay = s.pay := rfl
@[simp] theorem count_fault (s : State) : (s.count).fault = s.fault := rfl
@[simp] theorem count_gie (s : State) : (s.count).gie = s.gie := rfl
@[simp] theorem count_tmp (s : State) : (s.count).tmp = s.tmp := rfl
@[simp] theorem count_canpage (s : State) : (s.count).canpage = s.canpage := rfl
@[simp] theorem count_canie1 (s : State) : (s.count).canie1 = s.canie1 := rfl
@[simp] theorem count_canie2 (s : State) : (s.count).canie2 = s.canie2 := rfl
@[simp] theorem count_mobs (s : State) : (s.count).mobs = s.mobs := rfl
@[simp] theorem count_other (s : State) : (s.count).other = s.other := rfl
@[simp] theorem count_bus (s : State) : (s.count).bus = s.bus := rfl
@[simp] theorem count_held (s : State) : (s.count).held = s.held := rfl
@[simp] theorem count_steps (s : State) : (s.count).steps = s.steps + 1 := rfl
@[simp] theorem count_initialised (s : State) : (s.count).initialised = s.initialised := rfl
@[simp] theorem count_turns (s : State) : (s.count).turns = s.turns := rfl
@[simp] theorem count_ticks (s : State) : (s.count).ticks = s.ticks := rfl

/-! ## Both -/

@[simp] theorem begun_freeCount (s : State) : (s.begun).freeCount = s.freeCount := rfl
@[simp] theorem begun_phase (s : State) : (s.begun).phase = s.phase := rfl
@[simp] theorem begun_slot (s : State) : (s.begun).slot = s.slot := rfl
@[simp] theorem begun_claimed (s : State) : (s.begun).claimed = s.claimed := rfl
@[simp] theorem begun_ty (s : State) : (s.begun).ty = s.ty := rfl
@[simp] theorem begun_len (s : State) : (s.begun).len = s.len := rfl
@[simp] theorem begun_seq (s : State) : (s.begun).seq = s.seq := rfl
@[simp] theorem begun_dcnt (s : State) : (s.begun).dcnt = s.dcnt := rfl
@[simp] theorem begun_pay (s : State) : (s.begun).pay = s.pay := rfl
@[simp] theorem begun_fault (s : State) : (s.begun).fault = s.fault := rfl
@[simp] theorem begun_gie (s : State) : (s.begun).gie = s.gie := rfl
@[simp] theorem begun_tmp (s : State) : (s.begun).tmp = s.tmp := rfl
@[simp] theorem begun_canpage (s : State) : (s.begun).canpage = s.canpage := rfl
@[simp] theorem begun_canie1 (s : State) : (s.begun).canie1 = s.canie1 := rfl
@[simp] theorem begun_canie2 (s : State) : (s.begun).canie2 = s.canie2 := rfl
@[simp] theorem begun_mobs (s : State) : (s.begun).mobs = s.mobs := rfl
@[simp] theorem begun_other (s : State) : (s.begun).other = s.other := rfl
@[simp] theorem begun_bus (s : State) : (s.begun).bus = s.bus := rfl
@[simp] theorem begun_held (s : State) : (s.begun).held = s.held := rfl
@[simp] theorem begun_steps (s : State) : (s.begun).steps = s.steps + 1 := rfl
@[simp] theorem begun_initialised (s : State) : (s.begun).initialised = s.initialised := rfl
@[simp] theorem begun_turns (s : State) : (s.begun).turns = s.turns.tail := rfl
@[simp] theorem begun_ticks (s : State) : (s.begun).ticks = s.ticks + 1 := rfl

/-! ## The next phase (R12) -/

@[simp] theorem goto_freeCount (s : State) (ph : Phase) : (s.goto ph).freeCount = s.freeCount := rfl
@[simp] theorem goto_phase (s : State) (ph : Phase) : (s.goto ph).phase = ph := rfl
@[simp] theorem goto_slot (s : State) (ph : Phase) : (s.goto ph).slot = s.slot := rfl
@[simp] theorem goto_claimed (s : State) (ph : Phase) : (s.goto ph).claimed = s.claimed := rfl
@[simp] theorem goto_ty (s : State) (ph : Phase) : (s.goto ph).ty = s.ty := rfl
@[simp] theorem goto_len (s : State) (ph : Phase) : (s.goto ph).len = s.len := rfl
@[simp] theorem goto_seq (s : State) (ph : Phase) : (s.goto ph).seq = s.seq := rfl
@[simp] theorem goto_dcnt (s : State) (ph : Phase) : (s.goto ph).dcnt = s.dcnt := rfl
@[simp] theorem goto_pay (s : State) (ph : Phase) : (s.goto ph).pay = s.pay := rfl
@[simp] theorem goto_fault (s : State) (ph : Phase) : (s.goto ph).fault = s.fault := rfl
@[simp] theorem goto_gie (s : State) (ph : Phase) : (s.goto ph).gie = s.gie := rfl
@[simp] theorem goto_tmp (s : State) (ph : Phase) : (s.goto ph).tmp = s.tmp := rfl
@[simp] theorem goto_canpage (s : State) (ph : Phase) : (s.goto ph).canpage = s.canpage := rfl
@[simp] theorem goto_canie1 (s : State) (ph : Phase) : (s.goto ph).canie1 = s.canie1 := rfl
@[simp] theorem goto_canie2 (s : State) (ph : Phase) : (s.goto ph).canie2 = s.canie2 := rfl
@[simp] theorem goto_mobs (s : State) (ph : Phase) : (s.goto ph).mobs = s.mobs := rfl
@[simp] theorem goto_other (s : State) (ph : Phase) : (s.goto ph).other = s.other := rfl
@[simp] theorem goto_bus (s : State) (ph : Phase) : (s.goto ph).bus = s.bus := rfl
@[simp] theorem goto_held (s : State) (ph : Phase) : (s.goto ph).held = s.held := rfl
@[simp] theorem goto_steps (s : State) (ph : Phase) : (s.goto ph).steps = s.steps := rfl
@[simp] theorem goto_initialised (s : State) (ph : Phase) : (s.goto ph).initialised = s.initialised := rfl
@[simp] theorem goto_turns (s : State) (ph : Phase) : (s.goto ph).turns = s.turns := rfl
@[simp] theorem goto_ticks (s : State) (ph : Phase) : (s.goto ph).ticks = s.ticks := rfl

/-! ## The ownership mark taken back (R169) -/

@[simp] theorem disown_freeCount (s : State) : (s.disown).freeCount = s.freeCount := rfl
@[simp] theorem disown_phase (s : State) : (s.disown).phase = s.phase := rfl
@[simp] theorem disown_slot (s : State) : (s.disown).slot = s.slot := rfl
@[simp] theorem disown_claimed (s : State) : (s.disown).claimed = none := rfl
@[simp] theorem disown_ty (s : State) : (s.disown).ty = s.ty := rfl
@[simp] theorem disown_len (s : State) : (s.disown).len = s.len := rfl
@[simp] theorem disown_seq (s : State) : (s.disown).seq = s.seq := rfl
@[simp] theorem disown_dcnt (s : State) : (s.disown).dcnt = s.dcnt := rfl
@[simp] theorem disown_pay (s : State) : (s.disown).pay = s.pay := rfl
@[simp] theorem disown_fault (s : State) : (s.disown).fault = s.fault := rfl
@[simp] theorem disown_gie (s : State) : (s.disown).gie = s.gie := rfl
@[simp] theorem disown_tmp (s : State) : (s.disown).tmp = s.tmp := rfl
@[simp] theorem disown_canpage (s : State) : (s.disown).canpage = s.canpage := rfl
@[simp] theorem disown_canie1 (s : State) : (s.disown).canie1 = s.canie1 := rfl
@[simp] theorem disown_canie2 (s : State) : (s.disown).canie2 = s.canie2 := rfl
@[simp] theorem disown_mobs (s : State) : (s.disown).mobs = s.mobs := rfl
@[simp] theorem disown_other (s : State) : (s.disown).other = s.other := rfl
@[simp] theorem disown_bus (s : State) : (s.disown).bus = s.bus := rfl
@[simp] theorem disown_held (s : State) : (s.disown).held = s.held := rfl
@[simp] theorem disown_steps (s : State) : (s.disown).steps = s.steps := rfl
@[simp] theorem disown_initialised (s : State) : (s.disown).initialised = s.initialised := rfl
@[simp] theorem disown_turns (s : State) : (s.disown).turns = s.turns := rfl
@[simp] theorem disown_ticks (s : State) : (s.disown).ticks = s.ticks := rfl

/-! ## The waiting operation (R130) -/

@[simp] theorem hold_freeCount (s : State) (op : Option HostOp) : (s.hold op).freeCount = s.freeCount := rfl
@[simp] theorem hold_phase (s : State) (op : Option HostOp) : (s.hold op).phase = s.phase := rfl
@[simp] theorem hold_slot (s : State) (op : Option HostOp) : (s.hold op).slot = s.slot := rfl
@[simp] theorem hold_claimed (s : State) (op : Option HostOp) : (s.hold op).claimed = s.claimed := rfl
@[simp] theorem hold_ty (s : State) (op : Option HostOp) : (s.hold op).ty = s.ty := rfl
@[simp] theorem hold_len (s : State) (op : Option HostOp) : (s.hold op).len = s.len := rfl
@[simp] theorem hold_seq (s : State) (op : Option HostOp) : (s.hold op).seq = s.seq := rfl
@[simp] theorem hold_dcnt (s : State) (op : Option HostOp) : (s.hold op).dcnt = s.dcnt := rfl
@[simp] theorem hold_pay (s : State) (op : Option HostOp) : (s.hold op).pay = s.pay := rfl
@[simp] theorem hold_fault (s : State) (op : Option HostOp) : (s.hold op).fault = s.fault := rfl
@[simp] theorem hold_gie (s : State) (op : Option HostOp) : (s.hold op).gie = s.gie := rfl
@[simp] theorem hold_tmp (s : State) (op : Option HostOp) : (s.hold op).tmp = s.tmp := rfl
@[simp] theorem hold_canpage (s : State) (op : Option HostOp) : (s.hold op).canpage = s.canpage := rfl
@[simp] theorem hold_canie1 (s : State) (op : Option HostOp) : (s.hold op).canie1 = s.canie1 := rfl
@[simp] theorem hold_canie2 (s : State) (op : Option HostOp) : (s.hold op).canie2 = s.canie2 := rfl
@[simp] theorem hold_mobs (s : State) (op : Option HostOp) : (s.hold op).mobs = s.mobs := rfl
@[simp] theorem hold_other (s : State) (op : Option HostOp) : (s.hold op).other = s.other := rfl
@[simp] theorem hold_bus (s : State) (op : Option HostOp) : (s.hold op).bus = s.bus := rfl
@[simp] theorem hold_held (s : State) (op : Option HostOp) : (s.hold op).held = op := rfl
@[simp] theorem hold_steps (s : State) (op : Option HostOp) : (s.hold op).steps = s.steps := rfl
@[simp] theorem hold_initialised (s : State) (op : Option HostOp) : (s.hold op).initialised = s.initialised := rfl
@[simp] theorem hold_turns (s : State) (op : Option HostOp) : (s.hold op).turns = s.turns := rfl
@[simp] theorem hold_ticks (s : State) (op : Option HostOp) : (s.hold op).ticks = s.ticks := rfl

/-! ## The data cursor -/

@[simp] theorem afterMsg_freeCount (s : State) : (s.afterMsg).freeCount = s.freeCount := rfl
@[simp] theorem afterMsg_phase (s : State) : (s.afterMsg).phase = s.phase := rfl
@[simp] theorem afterMsg_slot (s : State) : (s.afterMsg).slot = s.slot := rfl
@[simp] theorem afterMsg_claimed (s : State) : (s.afterMsg).claimed = s.claimed := rfl
@[simp] theorem afterMsg_ty (s : State) : (s.afterMsg).ty = s.ty := rfl
@[simp] theorem afterMsg_len (s : State) : (s.afterMsg).len = s.len := rfl
@[simp] theorem afterMsg_seq (s : State) : (s.afterMsg).seq = s.seq := rfl
@[simp] theorem afterMsg_dcnt (s : State) : (s.afterMsg).dcnt = s.dcnt := rfl
@[simp] theorem afterMsg_pay (s : State) : (s.afterMsg).pay = s.pay := rfl
@[simp] theorem afterMsg_fault (s : State) : (s.afterMsg).fault = s.fault := rfl
@[simp] theorem afterMsg_gie (s : State) : (s.afterMsg).gie = s.gie := rfl
@[simp] theorem afterMsg_tmp (s : State) : (s.afterMsg).tmp = s.tmp := rfl
@[simp] theorem afterMsg_canpage (s : State) : (s.afterMsg).canpage = pageAfterMsg s.canpage := rfl
@[simp] theorem afterMsg_canie1 (s : State) : (s.afterMsg).canie1 = s.canie1 := rfl
@[simp] theorem afterMsg_canie2 (s : State) : (s.afterMsg).canie2 = s.canie2 := rfl
@[simp] theorem afterMsg_mobs (s : State) : (s.afterMsg).mobs = s.mobs := rfl
@[simp] theorem afterMsg_other (s : State) : (s.afterMsg).other = s.other := rfl
@[simp] theorem afterMsg_bus (s : State) : (s.afterMsg).bus = s.bus := rfl
@[simp] theorem afterMsg_held (s : State) : (s.afterMsg).held = s.held := rfl
@[simp] theorem afterMsg_steps (s : State) : (s.afterMsg).steps = s.steps := rfl
@[simp] theorem afterMsg_initialised (s : State) : (s.afterMsg).initialised = s.initialised := rfl
@[simp] theorem afterMsg_turns (s : State) : (s.afterMsg).turns = s.turns := rfl
@[simp] theorem afterMsg_ticks (s : State) : (s.afterMsg).ticks = s.ticks := rfl

/-! ## A fault recorded (R213) -/

@[simp] theorem raise_freeCount (s : State) (c : Fault) (p : Port) (w : Word) : (s.raise c p w).freeCount = s.freeCount := by unfold State.raise; split <;> rfl
@[simp] theorem raise_phase (s : State) (c : Fault) (p : Port) (w : Word) : (s.raise c p w).phase = s.phase := by unfold State.raise; split <;> rfl
@[simp] theorem raise_slot (s : State) (c : Fault) (p : Port) (w : Word) : (s.raise c p w).slot = s.slot := by unfold State.raise; split <;> rfl
@[simp] theorem raise_claimed (s : State) (c : Fault) (p : Port) (w : Word) : (s.raise c p w).claimed = s.claimed := by unfold State.raise; split <;> rfl
@[simp] theorem raise_ty (s : State) (c : Fault) (p : Port) (w : Word) : (s.raise c p w).ty = s.ty := by unfold State.raise; split <;> rfl
@[simp] theorem raise_len (s : State) (c : Fault) (p : Port) (w : Word) : (s.raise c p w).len = s.len := by unfold State.raise; split <;> rfl
@[simp] theorem raise_seq (s : State) (c : Fault) (p : Port) (w : Word) : (s.raise c p w).seq = s.seq := by unfold State.raise; split <;> rfl
@[simp] theorem raise_dcnt (s : State) (c : Fault) (p : Port) (w : Word) : (s.raise c p w).dcnt = s.dcnt := by unfold State.raise; split <;> rfl
@[simp] theorem raise_pay (s : State) (c : Fault) (p : Port) (w : Word) : (s.raise c p w).pay = s.pay := by unfold State.raise; split <;> rfl
@[simp] theorem raise_gie (s : State) (c : Fault) (p : Port) (w : Word) : (s.raise c p w).gie = s.gie := by unfold State.raise; split <;> rfl
@[simp] theorem raise_tmp (s : State) (c : Fault) (p : Port) (w : Word) : (s.raise c p w).tmp = s.tmp := by unfold State.raise; split <;> rfl
@[simp] theorem raise_canpage (s : State) (c : Fault) (p : Port) (w : Word) : (s.raise c p w).canpage = s.canpage := by unfold State.raise; split <;> rfl
@[simp] theorem raise_canie1 (s : State) (c : Fault) (p : Port) (w : Word) : (s.raise c p w).canie1 = s.canie1 := by unfold State.raise; split <;> rfl
@[simp] theorem raise_canie2 (s : State) (c : Fault) (p : Port) (w : Word) : (s.raise c p w).canie2 = s.canie2 := by unfold State.raise; split <;> rfl
@[simp] theorem raise_mobs (s : State) (c : Fault) (p : Port) (w : Word) : (s.raise c p w).mobs = s.mobs := by unfold State.raise; split <;> rfl
@[simp] theorem raise_other (s : State) (c : Fault) (p : Port) (w : Word) : (s.raise c p w).other = s.other := by unfold State.raise; split <;> rfl
@[simp] theorem raise_bus (s : State) (c : Fault) (p : Port) (w : Word) : (s.raise c p w).bus = s.bus := by unfold State.raise; split <;> rfl
@[simp] theorem raise_held (s : State) (c : Fault) (p : Port) (w : Word) : (s.raise c p w).held = s.held := by unfold State.raise; split <;> rfl
@[simp] theorem raise_steps (s : State) (c : Fault) (p : Port) (w : Word) : (s.raise c p w).steps = s.steps := by unfold State.raise; split <;> rfl
@[simp] theorem raise_initialised (s : State) (c : Fault) (p : Port) (w : Word) : (s.raise c p w).initialised = s.initialised := by unfold State.raise; split <;> rfl
@[simp] theorem raise_turns (s : State) (c : Fault) (p : Port) (w : Word) : (s.raise c p w).turns = s.turns := by unfold State.raise; split <;> rfl
@[simp] theorem raise_ticks (s : State) (c : Fault) (p : Port) (w : Word) : (s.raise c p w).ticks = s.ticks := by unfold State.raise; split <;> rfl

/-! ## A fault of a micro-step recorded -/

@[simp] theorem raiseFg_freeCount (s : State) (c : Fault) : (s.raiseFg c).freeCount = s.freeCount := by simp [State.raiseFg]
@[simp] theorem raiseFg_phase (s : State) (c : Fault) : (s.raiseFg c).phase = s.phase := by simp [State.raiseFg]
@[simp] theorem raiseFg_slot (s : State) (c : Fault) : (s.raiseFg c).slot = s.slot := by simp [State.raiseFg]
@[simp] theorem raiseFg_claimed (s : State) (c : Fault) : (s.raiseFg c).claimed = s.claimed := by simp [State.raiseFg]
@[simp] theorem raiseFg_ty (s : State) (c : Fault) : (s.raiseFg c).ty = s.ty := by simp [State.raiseFg]
@[simp] theorem raiseFg_len (s : State) (c : Fault) : (s.raiseFg c).len = s.len := by simp [State.raiseFg]
@[simp] theorem raiseFg_seq (s : State) (c : Fault) : (s.raiseFg c).seq = s.seq := by simp [State.raiseFg]
@[simp] theorem raiseFg_dcnt (s : State) (c : Fault) : (s.raiseFg c).dcnt = s.dcnt := by simp [State.raiseFg]
@[simp] theorem raiseFg_pay (s : State) (c : Fault) : (s.raiseFg c).pay = s.pay := by simp [State.raiseFg]
@[simp] theorem raiseFg_gie (s : State) (c : Fault) : (s.raiseFg c).gie = s.gie := by simp [State.raiseFg]
@[simp] theorem raiseFg_tmp (s : State) (c : Fault) : (s.raiseFg c).tmp = s.tmp := by simp [State.raiseFg]
@[simp] theorem raiseFg_canpage (s : State) (c : Fault) : (s.raiseFg c).canpage = s.canpage := by simp [State.raiseFg]
@[simp] theorem raiseFg_canie1 (s : State) (c : Fault) : (s.raiseFg c).canie1 = s.canie1 := by simp [State.raiseFg]
@[simp] theorem raiseFg_canie2 (s : State) (c : Fault) : (s.raiseFg c).canie2 = s.canie2 := by simp [State.raiseFg]
@[simp] theorem raiseFg_mobs (s : State) (c : Fault) : (s.raiseFg c).mobs = s.mobs := by simp [State.raiseFg]
@[simp] theorem raiseFg_other (s : State) (c : Fault) : (s.raiseFg c).other = s.other := by simp [State.raiseFg]
@[simp] theorem raiseFg_bus (s : State) (c : Fault) : (s.raiseFg c).bus = s.bus := by simp [State.raiseFg]
@[simp] theorem raiseFg_held (s : State) (c : Fault) : (s.raiseFg c).held = s.held := by simp [State.raiseFg]
@[simp] theorem raiseFg_steps (s : State) (c : Fault) : (s.raiseFg c).steps = s.steps := by simp [State.raiseFg]
@[simp] theorem raiseFg_initialised (s : State) (c : Fault) : (s.raiseFg c).initialised = s.initialised := by simp [State.raiseFg]
@[simp] theorem raiseFg_turns (s : State) (c : Fault) : (s.raiseFg c).turns = s.turns := by simp [State.raiseFg]
@[simp] theorem raiseFg_ticks (s : State) (c : Fault) : (s.raiseFg c).ticks = s.ticks := by simp [State.raiseFg]

/-! ## A mailbox replaced -/

@[simp] theorem setMob_freeCount (s : State) (m : Slot) (x : Mailbox) : (s.setMob m x).freeCount = s.freeCount := rfl
@[simp] theorem setMob_phase (s : State) (m : Slot) (x : Mailbox) : (s.setMob m x).phase = s.phase := rfl
@[simp] theorem setMob_slot (s : State) (m : Slot) (x : Mailbox) : (s.setMob m x).slot = s.slot := rfl
@[simp] theorem setMob_claimed (s : State) (m : Slot) (x : Mailbox) : (s.setMob m x).claimed = s.claimed := rfl
@[simp] theorem setMob_ty (s : State) (m : Slot) (x : Mailbox) : (s.setMob m x).ty = s.ty := rfl
@[simp] theorem setMob_len (s : State) (m : Slot) (x : Mailbox) : (s.setMob m x).len = s.len := rfl
@[simp] theorem setMob_seq (s : State) (m : Slot) (x : Mailbox) : (s.setMob m x).seq = s.seq := rfl
@[simp] theorem setMob_dcnt (s : State) (m : Slot) (x : Mailbox) : (s.setMob m x).dcnt = s.dcnt := rfl
@[simp] theorem setMob_pay (s : State) (m : Slot) (x : Mailbox) : (s.setMob m x).pay = s.pay := rfl
@[simp] theorem setMob_fault (s : State) (m : Slot) (x : Mailbox) : (s.setMob m x).fault = s.fault := rfl
@[simp] theorem setMob_gie (s : State) (m : Slot) (x : Mailbox) : (s.setMob m x).gie = s.gie := rfl
@[simp] theorem setMob_tmp (s : State) (m : Slot) (x : Mailbox) : (s.setMob m x).tmp = s.tmp := rfl
@[simp] theorem setMob_canpage (s : State) (m : Slot) (x : Mailbox) : (s.setMob m x).canpage = s.canpage := rfl
@[simp] theorem setMob_canie1 (s : State) (m : Slot) (x : Mailbox) : (s.setMob m x).canie1 = s.canie1 := rfl
@[simp] theorem setMob_canie2 (s : State) (m : Slot) (x : Mailbox) : (s.setMob m x).canie2 = s.canie2 := rfl
@[simp] theorem setMob_mobs (s : State) (m : Slot) (x : Mailbox) : (s.setMob m x).mobs = mobSet s.mobs m x := rfl
@[simp] theorem setMob_other (s : State) (m : Slot) (x : Mailbox) : (s.setMob m x).other = s.other := rfl
@[simp] theorem setMob_bus (s : State) (m : Slot) (x : Mailbox) : (s.setMob m x).bus = s.bus := rfl
@[simp] theorem setMob_held (s : State) (m : Slot) (x : Mailbox) : (s.setMob m x).held = s.held := rfl
@[simp] theorem setMob_steps (s : State) (m : Slot) (x : Mailbox) : (s.setMob m x).steps = s.steps := rfl
@[simp] theorem setMob_initialised (s : State) (m : Slot) (x : Mailbox) : (s.setMob m x).initialised = s.initialised := rfl
@[simp] theorem setMob_turns (s : State) (m : Slot) (x : Mailbox) : (s.setMob m x).turns = s.turns := rfl
@[simp] theorem setMob_ticks (s : State) (m : Slot) (x : Mailbox) : (s.setMob m x).ticks = s.ticks := rfl

/-! ## A mailbox changed -/

@[simp] theorem updMob_freeCount (s : State) (m : Slot) (f : Mailbox → Mailbox) : (s.updMob m f).freeCount = s.freeCount := rfl
@[simp] theorem updMob_phase (s : State) (m : Slot) (f : Mailbox → Mailbox) : (s.updMob m f).phase = s.phase := rfl
@[simp] theorem updMob_slot (s : State) (m : Slot) (f : Mailbox → Mailbox) : (s.updMob m f).slot = s.slot := rfl
@[simp] theorem updMob_claimed (s : State) (m : Slot) (f : Mailbox → Mailbox) : (s.updMob m f).claimed = s.claimed := rfl
@[simp] theorem updMob_ty (s : State) (m : Slot) (f : Mailbox → Mailbox) : (s.updMob m f).ty = s.ty := rfl
@[simp] theorem updMob_len (s : State) (m : Slot) (f : Mailbox → Mailbox) : (s.updMob m f).len = s.len := rfl
@[simp] theorem updMob_seq (s : State) (m : Slot) (f : Mailbox → Mailbox) : (s.updMob m f).seq = s.seq := rfl
@[simp] theorem updMob_dcnt (s : State) (m : Slot) (f : Mailbox → Mailbox) : (s.updMob m f).dcnt = s.dcnt := rfl
@[simp] theorem updMob_pay (s : State) (m : Slot) (f : Mailbox → Mailbox) : (s.updMob m f).pay = s.pay := rfl
@[simp] theorem updMob_fault (s : State) (m : Slot) (f : Mailbox → Mailbox) : (s.updMob m f).fault = s.fault := rfl
@[simp] theorem updMob_gie (s : State) (m : Slot) (f : Mailbox → Mailbox) : (s.updMob m f).gie = s.gie := rfl
@[simp] theorem updMob_tmp (s : State) (m : Slot) (f : Mailbox → Mailbox) : (s.updMob m f).tmp = s.tmp := rfl
@[simp] theorem updMob_canpage (s : State) (m : Slot) (f : Mailbox → Mailbox) : (s.updMob m f).canpage = s.canpage := rfl
@[simp] theorem updMob_canie1 (s : State) (m : Slot) (f : Mailbox → Mailbox) : (s.updMob m f).canie1 = s.canie1 := rfl
@[simp] theorem updMob_canie2 (s : State) (m : Slot) (f : Mailbox → Mailbox) : (s.updMob m f).canie2 = s.canie2 := rfl
@[simp] theorem updMob_mobs (s : State) (m : Slot) (f : Mailbox → Mailbox) :
    (s.updMob m f).mobs = mobSet s.mobs m (f (s.mob m)) := rfl
@[simp] theorem updMob_other (s : State) (m : Slot) (f : Mailbox → Mailbox) : (s.updMob m f).other = s.other := rfl
@[simp] theorem updMob_bus (s : State) (m : Slot) (f : Mailbox → Mailbox) : (s.updMob m f).bus = s.bus := rfl
@[simp] theorem updMob_held (s : State) (m : Slot) (f : Mailbox → Mailbox) : (s.updMob m f).held = s.held := rfl
@[simp] theorem updMob_steps (s : State) (m : Slot) (f : Mailbox → Mailbox) : (s.updMob m f).steps = s.steps := rfl
@[simp] theorem updMob_initialised (s : State) (m : Slot) (f : Mailbox → Mailbox) : (s.updMob m f).initialised = s.initialised := rfl
@[simp] theorem updMob_turns (s : State) (m : Slot) (f : Mailbox → Mailbox) : (s.updMob m f).turns = s.turns := rfl
@[simp] theorem updMob_ticks (s : State) (m : Slot) (f : Mailbox → Mailbox) : (s.updMob m f).ticks = s.ticks := rfl

/-! ## A slot released, the fields beside the mailboxes -/

@[simp] theorem release_freeCount (s : State) (q : Slot) : (s.release q).freeCount = s.freeCount + 1#8 := rfl
@[simp] theorem release_phase (s : State) (q : Slot) : (s.release q).phase = s.phase := rfl
@[simp] theorem release_slot (s : State) (q : Slot) : (s.release q).slot = s.slot := rfl
@[simp] theorem release_claimed (s : State) (q : Slot) : (s.release q).claimed = s.claimed := rfl
@[simp] theorem release_ty (s : State) (q : Slot) : (s.release q).ty = s.ty := rfl
@[simp] theorem release_len (s : State) (q : Slot) : (s.release q).len = s.len := rfl
@[simp] theorem release_seq (s : State) (q : Slot) : (s.release q).seq = s.seq := rfl
@[simp] theorem release_dcnt (s : State) (q : Slot) : (s.release q).dcnt = s.dcnt := rfl
@[simp] theorem release_pay (s : State) (q : Slot) : (s.release q).pay = s.pay := rfl
@[simp] theorem release_fault (s : State) (q : Slot) : (s.release q).fault = s.fault := rfl
@[simp] theorem release_gie (s : State) (q : Slot) : (s.release q).gie = s.gie := rfl
@[simp] theorem release_tmp (s : State) (q : Slot) : (s.release q).tmp = s.tmp := rfl
@[simp] theorem release_canpage (s : State) (q : Slot) : (s.release q).canpage = s.canpage := rfl
@[simp] theorem release_canie1 (s : State) (q : Slot) : (s.release q).canie1 = s.canie1 := rfl
@[simp] theorem release_canie2 (s : State) (q : Slot) : (s.release q).canie2 = s.canie2 := rfl
@[simp] theorem release_mobs (s : State) (q : Slot) :
    (s.release q).mobs = mobSet s.mobs q { s.mob q with cdmob := 0x00#8, stmob := 0x00#8 } := rfl
@[simp] theorem release_other (s : State) (q : Slot) : (s.release q).other = s.other := rfl
@[simp] theorem release_bus (s : State) (q : Slot) : (s.release q).bus = s.bus := rfl
@[simp] theorem release_held (s : State) (q : Slot) : (s.release q).held = s.held := rfl
@[simp] theorem release_steps (s : State) (q : Slot) : (s.release q).steps = s.steps := rfl
@[simp] theorem release_initialised (s : State) (q : Slot) : (s.release q).initialised = s.initialised := rfl
@[simp] theorem release_turns (s : State) (q : Slot) : (s.release q).turns = s.turns := rfl
@[simp] theorem release_ticks (s : State) (q : Slot) : (s.release q).ticks = s.ticks := rfl

/-! ## A frame sent, the fields beside the mailboxes -/

@[simp] theorem transmit_freeCount (s : State) (q : Slot) : (s.transmit q).freeCount = s.freeCount := rfl
@[simp] theorem transmit_phase (s : State) (q : Slot) : (s.transmit q).phase = s.phase := rfl
@[simp] theorem transmit_slot (s : State) (q : Slot) : (s.transmit q).slot = s.slot := rfl
@[simp] theorem transmit_claimed (s : State) (q : Slot) : (s.transmit q).claimed = s.claimed := rfl
@[simp] theorem transmit_ty (s : State) (q : Slot) : (s.transmit q).ty = s.ty := rfl
@[simp] theorem transmit_len (s : State) (q : Slot) : (s.transmit q).len = s.len := rfl
@[simp] theorem transmit_seq (s : State) (q : Slot) : (s.transmit q).seq = s.seq := rfl
@[simp] theorem transmit_dcnt (s : State) (q : Slot) : (s.transmit q).dcnt = s.dcnt := rfl
@[simp] theorem transmit_pay (s : State) (q : Slot) : (s.transmit q).pay = s.pay := rfl
@[simp] theorem transmit_fault (s : State) (q : Slot) : (s.transmit q).fault = s.fault := rfl
@[simp] theorem transmit_gie (s : State) (q : Slot) : (s.transmit q).gie = s.gie := rfl
@[simp] theorem transmit_tmp (s : State) (q : Slot) : (s.transmit q).tmp = s.tmp := rfl
@[simp] theorem transmit_canpage (s : State) (q : Slot) : (s.transmit q).canpage = s.canpage := rfl
@[simp] theorem transmit_canie1 (s : State) (q : Slot) : (s.transmit q).canie1 = s.canie1 := rfl
@[simp] theorem transmit_canie2 (s : State) (q : Slot) : (s.transmit q).canie2 = s.canie2 := rfl
@[simp] theorem transmit_mobs (s : State) (q : Slot) :
    (s.transmit q).mobs = mobSet s.mobs q { s.mob q with stmob := setTxok (s.mob q).stmob } := rfl
@[simp] theorem transmit_other (s : State) (q : Slot) : (s.transmit q).other = s.other := rfl
@[simp] theorem transmit_bus (s : State) (q : Slot) : (s.transmit q).bus = s.bus ++ [frameOf (s.mob q)] := rfl
@[simp] theorem transmit_held (s : State) (q : Slot) : (s.transmit q).held = s.held := rfl
@[simp] theorem transmit_steps (s : State) (q : Slot) : (s.transmit q).steps = s.steps := rfl
@[simp] theorem transmit_initialised (s : State) (q : Slot) : (s.transmit q).initialised = s.initialised := rfl
@[simp] theorem transmit_turns (s : State) (q : Slot) : (s.transmit q).turns = s.turns := rfl
@[simp] theorem transmit_ticks (s : State) (q : Slot) : (s.transmit q).ticks = s.ticks := rfl

/-! ## The external initialisation (R254, R255) -/

@[simp] theorem initWith_freeCount (s : State) (d : InitDraw) : (s.initWith d).freeCount = s.freeCount := rfl
@[simp] theorem initWith_phase (s : State) (d : InitDraw) : (s.initWith d).phase = s.phase := rfl
@[simp] theorem initWith_slot (s : State) (d : InitDraw) : (s.initWith d).slot = s.slot := rfl
@[simp] theorem initWith_claimed (s : State) (d : InitDraw) : (s.initWith d).claimed = s.claimed := rfl
@[simp] theorem initWith_ty (s : State) (d : InitDraw) : (s.initWith d).ty = s.ty := rfl
@[simp] theorem initWith_len (s : State) (d : InitDraw) : (s.initWith d).len = s.len := rfl
@[simp] theorem initWith_seq (s : State) (d : InitDraw) : (s.initWith d).seq = s.seq := rfl
@[simp] theorem initWith_dcnt (s : State) (d : InitDraw) : (s.initWith d).dcnt = s.dcnt := rfl
@[simp] theorem initWith_pay (s : State) (d : InitDraw) : (s.initWith d).pay = s.pay := rfl
@[simp] theorem initWith_fault (s : State) (d : InitDraw) : (s.initWith d).fault = s.fault := rfl
@[simp] theorem initWith_gie (s : State) (d : InitDraw) : (s.initWith d).gie = s.gie := rfl
@[simp] theorem initWith_tmp (s : State) (d : InitDraw) : (s.initWith d).tmp = s.tmp := rfl
@[simp] theorem initWith_canpage (s : State) (d : InitDraw) : (s.initWith d).canpage = d.canpage := rfl
@[simp] theorem initWith_canie1 (s : State) (d : InitDraw) : (s.initWith d).canie1 = d.canie1 &&& 0x7F#8 := rfl
@[simp] theorem initWith_canie2 (s : State) (d : InitDraw) : (s.initWith d).canie2 = d.canie2 := rfl
@[simp] theorem initWith_mobs (s : State) (d : InitDraw) : (s.initWith d).mobs = clearPool d.mobs := rfl
@[simp] theorem initWith_other (s : State) (d : InitDraw) : (s.initWith d).other = enableController d.other := rfl
@[simp] theorem initWith_bus (s : State) (d : InitDraw) : (s.initWith d).bus = s.bus := rfl
@[simp] theorem initWith_held (s : State) (d : InitDraw) : (s.initWith d).held = s.held := rfl
@[simp] theorem initWith_steps (s : State) (d : InitDraw) : (s.initWith d).steps = s.steps := rfl
@[simp] theorem initWith_initialised (s : State) (d : InitDraw) : (s.initWith d).initialised = true := rfl
@[simp] theorem initWith_turns (s : State) (d : InitDraw) : (s.initWith d).turns = s.turns := rfl
@[simp] theorem initWith_ticks (s : State) (d : InitDraw) : (s.initWith d).ticks = s.ticks := rfl

/-! ## A reset during a run (R250, R251) -/

@[simp] theorem resetFrom_freeCount (s : State) (d : ResetDraw) : (s.resetFrom d).freeCount = 7#8 := rfl
@[simp] theorem resetFrom_phase (s : State) (d : ResetDraw) : (s.resetFrom d).phase = .idle := rfl
@[simp] theorem resetFrom_slot (s : State) (d : ResetDraw) : (s.resetFrom d).slot = d.slot := rfl
@[simp] theorem resetFrom_claimed (s : State) (d : ResetDraw) : (s.resetFrom d).claimed = none := rfl
@[simp] theorem resetFrom_ty (s : State) (d : ResetDraw) : (s.resetFrom d).ty = d.ty := rfl
@[simp] theorem resetFrom_len (s : State) (d : ResetDraw) : (s.resetFrom d).len = d.len := rfl
@[simp] theorem resetFrom_seq (s : State) (d : ResetDraw) : (s.resetFrom d).seq = ⟨d.seq, false⟩ := rfl
@[simp] theorem resetFrom_dcnt (s : State) (d : ResetDraw) : (s.resetFrom d).dcnt = ⟨d.dcnt, false⟩ := rfl
/-- No payload byte counts as written (R27). -/
@[simp] theorem unwritten_w (pay : Vector Byte 4) (k : Fin 4) : ((unwritten pay)[k]).w = false := by
  match k with
  | 0 | 1 | 2 | 3 => rfl

@[simp] theorem resetFrom_pay (s : State) (d : ResetDraw) : (s.resetFrom d).pay = unwritten d.pay := rfl
@[simp] theorem resetFrom_fault (s : State) (d : ResetDraw) : (s.resetFrom d).fault = none := rfl
@[simp] theorem resetFrom_gie (s : State) (d : ResetDraw) : (s.resetFrom d).gie = false := rfl
@[simp] theorem resetFrom_tmp (s : State) (d : ResetDraw) : (s.resetFrom d).tmp = d.tmp := rfl
@[simp] theorem resetFrom_canpage (s : State) (d : ResetDraw) : (s.resetFrom d).canpage = 0x00#8 := rfl
@[simp] theorem resetFrom_canie1 (s : State) (d : ResetDraw) : (s.resetFrom d).canie1 = 0x00#8 := rfl
@[simp] theorem resetFrom_canie2 (s : State) (d : ResetDraw) : (s.resetFrom d).canie2 = 0x00#8 := rfl
@[simp] theorem resetFrom_mobs (s : State) (d : ResetDraw) : (s.resetFrom d).mobs = d.mobs := rfl
@[simp] theorem resetFrom_other (s : State) (d : ResetDraw) : (s.resetFrom d).other = d.other := rfl
@[simp] theorem resetFrom_bus (s : State) (d : ResetDraw) : (s.resetFrom d).bus = [] := rfl
@[simp] theorem resetFrom_held (s : State) (d : ResetDraw) : (s.resetFrom d).held = none := rfl
@[simp] theorem resetFrom_steps (s : State) (d : ResetDraw) : (s.resetFrom d).steps = s.steps := rfl
@[simp] theorem resetFrom_initialised (s : State) (d : ResetDraw) : (s.resetFrom d).initialised = false := rfl
@[simp] theorem resetFrom_turns (s : State) (d : ResetDraw) : (s.resetFrom d).turns = s.turns := rfl
@[simp] theorem resetFrom_ticks (s : State) (d : ResetDraw) : (s.resetFrom d).ticks = s.ticks := rfl

end Sys2Proof.Machine
end

