-- ==== Sys2Proof/Laws/Ops.lean ====
section
/-! SUPPORT. One lemma or two for each shared operation: what it does, said once (20_memory R71-R78, 60_exceptions R213,
40_commands R130, R136, 42_reclaim R190, R191). -/

namespace Sys2Proof.Machine

/-! ## Mailboxes -/

theorem mobAt_mobSet_self {v : Vector Mailbox Config.mobCount} {m : Slot} (x : Mailbox) (h : m ≠ 15#4) :
    mobAt (mobSet v m x) m = x := by
  simp [mobAt, mobSet, lt_mobCount_of_ne h]

theorem mobAt_mobSet_ne {v : Vector Mailbox Config.mobCount} {m q : Slot} (x : Mailbox) (h : q ≠ m) :
    mobAt (mobSet v m x) q = mobAt v q := by
  have hn : m.toNat ≠ q.toNat := fun e => h (BitVec.eq_of_toNat_eq e.symm)
  by_cases hm : m.toNat < Config.mobCount <;> simp [mobAt, mobSet, hm, hn]

/-- A mailbox read after a mailbox write. -/
theorem mobAt_mobSet {v : Vector Mailbox Config.mobCount} {m : Slot} (q : Slot) (x : Mailbox) (h : m ≠ 15#4) :
    mobAt (mobSet v m x) q = if q = m then x else mobAt v q := by
  split
  · next e => rw [e, mobAt_mobSet_self x h]
  · next e => exact mobAt_mobSet_ne x e

@[simp] theorem mobSet_mobSet {v : Vector Mailbox Config.mobCount} {m : Slot} (x y : Mailbox) :
    mobSet (mobSet v m x) m y = mobSet v m y := by
  unfold mobSet; split <;> simp

/-- Writing back what stands there changes nothing. -/
@[simp] theorem mobSet_mobAt {v : Vector Mailbox Config.mobCount} {m : Slot} : mobSet v m (mobAt v m) = v := by
  unfold mobSet mobAt; split <;> simp

/-- The initialisation clears the control and status registers of the pool's mailboxes and no other (R255 step 2). -/
theorem mobAt_clearPool (v : Vector Mailbox Config.mobCount) (q : Slot) :
    mobAt (clearPool v) q = if inPool q = true then clearedMob (mobAt v q) else mobAt v q := by
  have key : ∀ (l : List Slot) (v : Vector Mailbox Config.mobCount), (∀ m ∈ l, m ≠ 15#4) → l.Nodup →
      mobAt (l.foldl (fun v q => mobSet v q (clearedMob (mobAt v q))) v) q =
        if q ∈ l then clearedMob (mobAt v q) else mobAt v q := by
    intro l
    induction l with
    | nil => simp
    | cons m l ih =>
      intro v hl hn
      rw [List.foldl_cons, ih _ (fun a ha => hl a (List.mem_cons_of_mem _ ha)) hn.of_cons]
      have hm : m ∉ l := (List.nodup_cons.mp hn).1
      by_cases h : q = m
      · subst h
        simp [hm, mobAt_mobSet_self _ (hl q List.mem_cons_self)]
      · rw [mobAt_mobSet_ne _ h]
        simp [h]
  rw [clearPool, key poolSlots v (by decide) (by decide)]
  simp [mem_poolSlots]

/-! ## The completion interrupt (R44, R192, R218) -/

/-- With the controller-level enables on, a pending interrupt reaches the CPU. -/
theorem routed_of_ready {s : State} (h : ControllerReady s) (q : Slot) : s.routed q = s.pending q := by
  simp [State.routed, h.interrupts, h.transmit]

/-- Item 3 of INIT_CLEAN speaks of the model's flag and of R42's registers alone. -/
theorem ControllerReady.congr {s t : State} (h : ControllerReady s) (hi : t.initialised = s.initialised)
    (ho : t.other = s.other) : ControllerReady t :=
  ⟨by rw [hi]; exact h.initialised, by rw [ho]; exact h.running, by rw [ho]; exact h.interrupts,
    by rw [ho]; exact h.transmit⟩

/-- The external initialisation gives item 3 of INIT_CLEAN (R255 step 2). -/
theorem initWith_ready (s : State) (d : InitDraw) : ControllerReady (s.initWith d) :=
  ⟨rfl, enaStb_setEnaStb _, enit_setTxEnables _, entx_setTxEnables _⟩

/-! ## Faults (R213) -/

theorem raise_of_none {s : State} (h : s.fault = none) (c : Fault) (port : Port) (w : Word) :
    s.raise c port w = { s with fault := some ⟨c, port, w⟩ } := by
  simp [State.raise, h]

theorem raise_of_some {s : State} {r : FaultRecord} (h : s.fault = some r) (c : Fault) (port : Port) (w : Word) :
    s.raise c port w = s := by
  simp [State.raise, h]

/-- Raising a fault changes no field but `fault`. -/
theorem raise_eq (s : State) (c : Fault) (port : Port) (w : Word) :
    s.raise c port w = { s with fault := (s.raise c port w).fault } := by
  unfold State.raise; split <;> rfl

/-- Raising a fault writes the record only when none stands. -/
theorem raise_fault (s : State) (c : Fault) (port : Port) (w : Word) :
    (s.raise c port w).fault = some (s.fault.getD ⟨c, port, w⟩) := by
  unfold State.raise; split <;> simp_all

/-! ## Register accesses (R73-R78) -/

theorem pagedWrite_of_page {s : State} (h : mobnb s.canpage ≠ 15#4) (f : Mailbox → Mailbox) :
    s.pagedWrite f = some (s.updMob (mobnb s.canpage) f) := by
  simp [State.pagedWrite, h]

theorem pagedRead_of_page {s : State} (h : mobnb s.canpage ≠ 15#4) (f : Mailbox → Byte) :
    s.pagedRead f = some (f (s.mob (mobnb s.canpage)), s) := by
  simp [State.pagedRead, h]

/-- R74: every paged write is illegal while MOBNB = 15. -/
theorem pagedWrite_illegal {s : State} (h : mobnb s.canpage = 15#4) (f : Mailbox → Mailbox) :
    s.pagedWrite f = none := by
  simp [State.pagedWrite, h]

/-- R74: every paged read is illegal while MOBNB = 15. -/
theorem pagedRead_illegal {s : State} (h : mobnb s.canpage = 15#4) (f : Mailbox → Byte) :
    s.pagedRead f = none := by
  simp [State.pagedRead, h]

/-! ## Ports -/

theorem onFgPort_idle {s : State} (h : s.phase = .idle) (f : State → State) : onFgPort s f = .next (f s) := by
  simp [onFgPort, h]

/-- R130: a busy FG port holds. -/
theorem onFgPort_busy {s : State} (h : s.phase ≠ .idle) (f : State → State) : onFgPort s f = .next s := by
  simp [onFgPort, h]

@[simp] theorem refuseOr_none (s : State) (i : Instr) (t : State) : s.refuseOr none i t = t := rfl

@[simp] theorem refuseOr_some (s : State) (c : Fault) (i : Instr) (t : State) :
    s.refuseOr (some c) i t = s.raise c i.port i.encode := rfl

/-- RECLAIM passes its check exactly for a completed in-flight pool slot while the counter is not 7 (R191). -/
theorem reclaimCheck_eq_none {s : State} {q : Slot} :
    s.reclaimCheck q = none ↔ inPool q = true ∧ conmob (s.mob q).cdmob = 0b01#2 ∧
      txok (s.mob q).stmob = true ∧ s.freeCount ≠ 7#8 := by
  unfold State.reclaimCheck
  split
  · simp_all
  · split
    · simp_all
      grind
    · split <;> simp_all

/-- SEND passes its check exactly with LEN at most 4 and every byte it needs staged (R136). -/
theorem sendCheck_eq_none {s : State} {len : BitVec 3} :
    s.sendCheck len = none ↔ len.toNat ≤ 4 ∧ s.seq.w = true ∧ s.dcnt.w = true ∧
      s.payStaged len.toNat = true := by
  unfold State.sendCheck
  split
  · simp_all
  · split
    · simp_all
      grind
    · split <;> simp_all

/-- A RECLAIM word on the IRQ port runs RECLAIM: its encoding decodes to it. -/
theorem portWord_reclaim (q : Slot) (s : State) : portWord .irq (Instr.reclaim q).encode s = execReclaim q s := by
  have h : ∀ q : Slot, decode .irq (Instr.reclaim q).encode = .cmd (.reclaim q) := by decide
  simp [portWord, h, exec]

end Sys2Proof.Machine
end

