-- ==== Sys2Proof/Laws/PerInstr.lean ====
section
/-! SUPPORT. Statements about every command as syntax, one lemma per constructor. -/

namespace Sys2Proof.Laws.EncodeMatch

/-- R109: a command's word, with any operands, matches the command's own row (`mask` and `match`). -/
def Statement (i : Instr) : Prop := i.encode &&& i.maskBits = i.matchBits

/-- A field of a word kept or cleared by a mask is read off bit by bit. -/
theorem and_eq_of_bits {w m v : Word} (h : ∀ i < 16, (w.getLsbD i && m.getLsbD i) = v.getLsbD i) : w &&& m = v := by
  apply BitVec.eq_of_getLsbD_eq
  intro i hi
  rw [BitVec.getLsbD_and, h i hi]

theorem send (ty : BitVec 8) (len : BitVec 3) : Statement (.send ty len) := by
  apply and_eq_of_bits
  intro i hi
  simp only [Instr.encode, Instr.maskBits, Instr.matchBits, BitVec.getLsbD_append]
  interval_cases i <;> simp

theorem stage (idx : BitVec 2) (byte : BitVec 8) : Statement (.stage idx byte) := by
  apply and_eq_of_bits
  intro i hi
  simp only [Instr.encode, Instr.maskBits, Instr.matchBits, BitVec.getLsbD_append]
  interval_cases i <;> simp

theorem setseq (byte : BitVec 8) : Statement (.setseq byte) := by
  unfold Statement; revert byte; decide

theorem setdcnt (byte : BitVec 8) : Statement (.setdcnt byte) := by
  unfold Statement; revert byte; decide

theorem reclaim (slot : BitVec 4) : Statement (.reclaim slot) := by
  unfold Statement; revert slot; decide

end Sys2Proof.Laws.EncodeMatch
end

