-- ==== Sys2Proof/Laws/Turn.lean ====
section
/-! SUPPORT. Everything a turn can do, said once: whatever the turn, the next state is one of the effects below applied to
the state with its bookkeeping (step count, waiting operation) adjusted. Later proofs take a turn apart with `takeTurn_effect`
and never unfold the ports, `exec` or the agents again. -/

namespace Sys2Proof.Machine

/-- What one turn can do to the state `s` (R10, R130-R139, R150, R190-R195, R250, R255). -/
inductive Effect (p : Params) (t : Turn) (s : State) : State → Prop where
  /-- Nothing: the agent holds. -/
  | hold : Effect p t s s
  /-- A command is refused: its fault is recorded (never ERR_NOSLOT, which only FG raises). -/
  | refused (c : Fault) (port : Port) (w : Word) (hc : c ≠ .errNoslot) : Effect p t s (s.raise c port w)
  /-- HOST writes `gie`. -/
  | gie (b : Bool) (hi : s.phase = .idle) : Effect p t s { s with gie := b }
  /-- STAGE. -/
  | stage (idx : BitVec 2) (byte : Byte) (hi : s.phase = .idle) :
      Effect p t s { s with pay := s.pay.set idx.toNat ⟨byte, true⟩ idx.isLt }
  /-- SETSEQ. -/
  | setseq (byte : Byte) (hi : s.phase = .idle) : Effect p t s { s with seq := ⟨byte, true⟩ }
  /-- SETDCNT. -/
  | setdcnt (byte : Byte) (hi : s.phase = .idle) : Effect p t s { s with dcnt := ⟨byte, true⟩ }
  /-- SEND is accepted. -/
  | send (ty : Byte) (len : BitVec 3) (hi : s.phase = .idle) (hc : s.sendCheck len = none) :
      Effect p t s { s with ty := ty, len := len, phase := .poll }
  /-- RECLAIM is accepted. -/
  | reclaim (q : Slot)
      (ht : (t = .irq q ∧ s.irqEnabled q = true) ∨ ∃ w, t = .irqPort w ∧ decode .irq w = .cmd (.reclaim q)) (hc : s.reclaimCheck q = none) :
      Effect p t s (s.release q)
  /-- CTRL transmits. -/
  | transmit (q : Slot) (ht : t = .ctrl q) (he : s.txEnabled q = true) : Effect p t s (s.transmit q)
  /-- FG runs its micro-step. -/
  | micro (ht : t = .fg) (hb : s.phase ≠ .idle) : Effect p t s (fgMicro p s)
  /-- The external initialisation runs. -/
  | init (d : InitDraw) (ht : t = .init) (hn : s.initialised = false) (hi : s.phase = .idle) :
      Effect p t s (s.initWith d)
  /-- Reset. -/
  | reset (d : ResetDraw) (ht : t = .reset) : Effect p t s (s.resetFrom d)

/-- `exec` on the FG port: what a decoded command can do while the port is ready. -/
theorem exec_effect {p : Params} {t : Turn} {i : Instr} {s s' : State} (hi : s.phase = .idle ∨ i.port = .irq)
    (ht : i.port = .irq → (∃ w, t = .irqPort w ∧ decode .irq w = .cmd i) ∨
      ∃ q, i = .reclaim q ∧ t = .irq q ∧ s.irqEnabled q = true)
    (h : exec i s = .next s') : Effect p t s s' := by
  cases i with
  | send ty len =>
    have hi : s.phase = .idle := by simpa [Instr.port] using hi
    rw [show exec (.send ty len) s = execSend ty len s from rfl, execSend, onFgPort_idle hi] at h
    cases hc : s.sendCheck len with
    | none => rw [hc] at h; cases h; exact .send ty len hi hc
    | some c =>
      rw [hc] at h; cases h
      refine .refused c .fg _ ?_
      rintro rfl
      revert hc; unfold State.sendCheck; split <;> [skip; split <;> [skip; split]] <;> simp
  | stage idx byte =>
    have hi : s.phase = .idle := by simpa [Instr.port] using hi
    rw [show exec (.stage idx byte) s = execStage idx byte s from rfl, execStage, onFgPort_idle hi] at h
    cases h; exact .stage idx byte hi
  | setseq byte =>
    have hi : s.phase = .idle := by simpa [Instr.port] using hi
    rw [show exec (.setseq byte) s = execSetseq byte s from rfl, execSetseq, onFgPort_idle hi] at h
    cases h; exact .setseq byte hi
  | setdcnt byte =>
    have hi : s.phase = .idle := by simpa [Instr.port] using hi
    rw [show exec (.setdcnt byte) s = execSetdcnt byte s from rfl, execSetdcnt, onFgPort_idle hi] at h
    cases h; exact .setdcnt byte hi
  | reclaim q =>
    rw [show exec (.reclaim q) s = execReclaim q s from rfl, execReclaim] at h
    cases hc : s.reclaimCheck q with
    | none =>
      rw [hc] at h; cases h
      refine .reclaim q ?_ hc
      rcases ht rfl with h | ⟨q', e, h⟩
      · exact .inr h
      · cases e; exact .inl h
    | some c =>
      rw [hc] at h; cases h
      refine .refused c .irq _ ?_
      rintro rfl
      revert hc; unfold State.reclaimCheck; split <;> [skip; split <;> [skip; split]] <;> simp

/-- A decoded command belongs to the port it came on (R105). -/
theorem port_of_decode {port : Port} {w : Word} {i : Instr} (h : decode port w = .cmd i) : i.port = port := by
  unfold decode checkPort at h
  split at h
  · split at h
    · next hp => cases h; exact hp
    · cases h
  · cases h

/-- A word on a port: one of the effects of its commands, or ERR_ILLEGAL recorded. -/
theorem portWord_effect {p : Params} {t : Turn} {port : Port} {w : Word} {s s' : State}
    (hi : s.phase = .idle ∨ port = .irq)
    (ht : port = .irq → t = .irqPort w ∨
      ∃ q, decode .irq w = .cmd (.reclaim q) ∧ t = .irq q ∧ s.irqEnabled q = true)
    (h : portWord port w s = .next s') : Effect p t s s' := by
  unfold portWord at h
  split at h
  · next i hd =>
    have hp := port_of_decode hd
    refine exec_effect (hp ▸ hi) (fun e => ?_) h
    have hport : port = .irq := hp ▸ e
    subst hport
    rcases ht rfl with h | ⟨q, hq, h⟩
    · exact .inl ⟨w, h, hd⟩
    · rw [hd] at hq
      exact .inr ⟨q, by cases hq; rfl, h⟩
  · cases h; exact .refused _ _ _ (by simp)

/-- The state with its bookkeeping adjusted: only the step count and the waiting operation differ. -/
abbrev State.kept (s : State) (n : Nat) (o : Option HostOp) : State := { s with steps := n, held := o }

/-- Everything a turn can do (the inversion lemma of `takeTurn`). -/
theorem takeTurn_effect {p : Params} {t : Turn} {s s' : State} (h : takeTurn p t s = .next s') :
    ∃ n o, Effect p t (s.kept n o) s' := by
  cases t with
  | host op =>
    simp only [takeTurn, hostTurn] at h
    split at h
    · next hi =>
      refine ⟨s.steps + 1, none, ?_⟩
      unfold hostAccept at h
      split at h
      · exact portWord_effect (s := s.kept (s.steps + 1) none) (.inl hi) (fun e => by cases e) h
      · cases h; exact .gie _ hi
    · cases h; exact ⟨s.steps, _, .hold⟩
  | fg =>
    simp only [takeTurn, fgTurn] at h
    split at h
    · cases h; exact ⟨s.steps, s.held, .hold⟩
    · next hb => cases h; exact ⟨s.steps + 1, s.held, .micro rfl hb⟩
  | irq q =>
    simp only [takeTurn, irqTurn] at h
    split at h
    · next he =>
      refine ⟨s.steps + 1, s.held, portWord_effect (s := s.kept (s.steps + 1) s.held) (.inr rfl)
        (fun _ => .inr ⟨q, ?_, rfl, he⟩) h⟩
      have hd : ∀ q : Slot, decode .irq (Instr.reclaim q).encode = .cmd (.reclaim q) := by decide
      exact hd q
    · cases h; exact ⟨s.steps, s.held, .hold⟩
  | irqPort w =>
    exact ⟨s.steps + 1, s.held,
      portWord_effect (s := s.kept (s.steps + 1) s.held) (.inr rfl) (fun _ => .inl rfl) h⟩
  | ctrl q =>
    simp only [takeTurn, ctrlTurn] at h
    split at h
    · next he => cases h; exact ⟨s.steps + 1, s.held, .transmit q rfl he⟩
    · cases h; exact ⟨s.steps, s.held, .hold⟩
  | init =>
    simp only [takeTurn, initTurn] at h
    split at h
    · next he => cases h; exact ⟨s.steps, s.held, .init _ rfl he.1 he.2⟩
    · cases h; exact ⟨s.steps, s.held, .hold⟩
  | reset =>
    simp only [takeTurn, resetTurn] at h
    cases h
    exact ⟨s.steps, s.held, .reset _ rfl⟩

/-- What a step of the machine can do: the effect of the turn that was next. -/
theorem stepWith_effect {p : Params} {s s' : State} (h : stepWith p s = .next s') :
    ∃ n o, Effect p (nextTurn p s) (s.pop.kept n o) s' :=
  takeTurn_effect h

end Sys2Proof.Machine
end

