-- ==== Sys2Proof/Laws/Sequencer.lean ====
section
/-! SUPPORT. Each micro-step of SEND as one record update, for a page that selects a mailbox (41_send_sequencer R151-R170);
and the page-15 case, where ERR_ILLEGAL is recorded and the phase stays (20_memory R74). -/

namespace Sys2Proof.Machine

variable {p : Params} {s : State}

theorem fgPoll_zero (h : s.freeCount = 0#8) : fgPoll s = s := by simp [fgPoll, h]

theorem fgPoll_pos (h : s.freeCount ≠ 0#8) : fgPoll s = { s with slot := 8#4, phase := .scanPage } := by
  simp [fgPoll, h]

theorem fgScanPage_eq : fgScanPage s = { s with canpage := pageValue s.slot, phase := .scanTest } := rfl

theorem fgScanTest_found (hp : mobnb s.canpage ≠ 15#4) (h : conmob (s.mob (mobnb s.canpage)).cdmob = 0b00#2) :
    fgScanTest s = s.goto .clrRead := by
  simp [fgScanTest, State.readThen, State.regRead, pagedRead_of_page hp, h]

theorem fgScanTest_next (hp : mobnb s.canpage ≠ 15#4) (h : conmob (s.mob (mobnb s.canpage)).cdmob ≠ 0b00#2)
    (hs : s.slot.toNat < 14) : fgScanTest s = { s with slot := s.slot + 1#4, phase := .scanPage } := by
  have h' : ¬ conmob (s.mob (mobnb s.canpage)).cdmob = 0#2 := h
  simp [fgScanTest, State.readThen, State.regRead, pagedRead_of_page hp, h', hs, Config.slotLast]

theorem fgScanTest_exhausted (hp : mobnb s.canpage ≠ 15#4) (h : conmob (s.mob (mobnb s.canpage)).cdmob ≠ 0b00#2)
    (hs : 14 ≤ s.slot.toNat) : fgScanTest s = (s.raiseFg .errNoslot).goto .idle := by
  have h' : ¬ conmob (s.mob (mobnb s.canpage)).cdmob = 0#2 := h
  have hs' : ¬ s.slot.toNat < 14 := by omega
  simp [fgScanTest, State.readThen, State.regRead, pagedRead_of_page hp, h', hs', Config.slotLast, fgExhausted]

theorem fgClrRead_eq (hp : mobnb s.canpage ≠ 15#4) : fgClrRead s = s.goto .clrWrite := by
  simp [fgClrRead, State.readThen, State.regRead, pagedRead_of_page hp]

theorem fgClrWrite_eq (hp : mobnb s.canpage ≠ 15#4) :
    fgClrWrite s = (s.updMob (mobnb s.canpage) (fun x => { x with stmob := 0x00#8 })).goto .claim := by
  simp [fgClrWrite, State.writeThen, State.regWrite, pagedWrite_of_page hp]

theorem fgClaim_pos (h : s.freeCount ≠ 0#8) :
    fgClaim s = { s with freeCount := s.freeCount - 1#8, claimed := some s.slot, phase := .page } := by
  simp [fgClaim, h]

theorem fgClaim_zero (h : s.freeCount = 0#8) : fgClaim s = (s.raiseFg .errNoslot).goto .idle := by
  simp [fgClaim, h]

theorem fgPage_eq : fgPage s = { s with canpage := pageValue s.slot, phase := .wrid1 } := rfl

theorem fgWrid1_eq (hp : mobnb s.canpage ≠ 15#4) : fgWrid1 p s =
    (s.updMob (mobnb s.canpage) (fun x => { x with idt1 := idt1Value p.bootCanId })).goto .wrid2 := by
  simp [fgWrid1, State.writeThen, State.regWrite, pagedWrite_of_page hp]

theorem fgWrid2_eq (hp : mobnb s.canpage ≠ 15#4) : fgWrid2 p s =
    (s.updMob (mobnb s.canpage) (fun x => { x with idt2 := idt2Value p.bootCanId })).goto .wrid3 := by
  simp [fgWrid2, State.writeThen, State.regWrite, pagedWrite_of_page hp]

theorem fgWrid3_eq (hp : mobnb s.canpage ≠ 15#4) : fgWrid3 s =
    (s.updMob (mobnb s.canpage) (fun x => { x with idt3 := 0x00#8 })).goto .wrid4 := by
  simp [fgWrid3, State.writeThen, State.regWrite, pagedWrite_of_page hp]

theorem fgWrid4_eq (hp : mobnb s.canpage ≠ 15#4) : fgWrid4 s =
    (s.updMob (mobnb s.canpage) (fun x => { x with idt4 := 0x00#8 })).goto (.wrhdr 0) := by
  simp [fgWrid4, State.writeThen, State.regWrite, pagedWrite_of_page hp]

theorem fgWrhdr_eq (hp : mobnb s.canpage ≠ 15#4) (k : Fin 4) : fgWrhdr p k s =
    (s.updMob (mobnb s.canpage) (fun x => setMsg x (indx s.canpage) (hdrByte p s k))).afterMsg.goto (afterHdr s.len k) := by
  simp [fgWrhdr, State.writeThen, State.regWrite, pagedWrite_of_page hp]

theorem fgWrpay_eq (hp : mobnb s.canpage ≠ 15#4) (k : Fin 4) : fgWrpay k s =
    (s.updMob (mobnb s.canpage) (fun x => setMsg x (indx s.canpage) s.pay[k].val)).afterMsg.goto (afterPay s.len k) := by
  simp [fgWrpay, State.writeThen, State.regWrite, pagedWrite_of_page hp]

theorem fgEnieRead_eq : fgEnieRead s = { s with tmp := s.canie1 &&& 0x7F#8, phase := .enieWrite } := rfl

theorem fgEnieWrite_eq :
    fgEnieWrite s = { s with canie1 := (s.tmp ||| ieMask s.slot) &&& 0x7F#8, phase := .arm } := rfl

theorem fgArm_eq (hp : mobnb s.canpage ≠ 15#4) : fgArm s =
    (s.updMob (mobnb s.canpage) (fun x => { x with cdmob := armValue s.len })).disown.goto .done := by
  simp [fgArm, State.regWrite, pagedWrite_of_page hp]

theorem fgDone_eq : fgDone s = s.goto .idle := rfl

/-! ## Page 15 (R74) -/

/-- A micro-step's write to a paged register with MOBNB = 15 records ERR_ILLEGAL and does nothing else. -/
theorem writeThen_illegal (hp : mobnb s.canpage = 15#4) {r : RegName} (hr : r ≠ .canpage) (hi : r ≠ .canie1)
    (v : Byte) (next : Phase) : s.writeThen r v next = s.raiseFg .errIllegal := by
  cases r <;> simp_all [State.writeThen, State.regWrite, pagedWrite_illegal]

/-- A micro-step's read of a paged register with MOBNB = 15 records ERR_ILLEGAL and does nothing else. -/
theorem readThen_illegal (hp : mobnb s.canpage = 15#4) {r : RegName} (hr : r ≠ .canpage) (hi : r ≠ .canie1)
    (k : Byte → State → State) : s.readThen r k = s.raiseFg .errIllegal := by
  cases r <;> simp_all [State.readThen, State.regRead, pagedRead_illegal]

/-! ## The phases after the data bytes -/

theorem afterHdr_lt {len : BitVec 3} {k : Fin 4} (h : k.val < 3) : afterHdr len k = .wrhdr ⟨k.val + 1, by omega⟩ := by
  simp [afterHdr, h]

theorem afterHdr_last_empty {k : Fin 4} (h : k.val = 3) : afterHdr 0#3 k = .enieRead := by
  simp [afterHdr, h]

theorem afterHdr_last {len : BitVec 3} {k : Fin 4} (h : k.val = 3) (hl : len ≠ 0#3) : afterHdr len k = .wrpay 0 := by
  have hl' : ¬ len = 0#3 := hl
  simp [afterHdr, h, hl']

theorem afterPay_next {len : BitVec 3} {k : Fin 4} (h : k.val + 1 < len.toNat) (h4 : k.val + 1 < 4) :
    afterPay len k = .wrpay ⟨k.val + 1, h4⟩ := by
  simp [afterPay, h, h4]

theorem afterPay_last {len : BitVec 3} {k : Fin 4} (h : len.toNat ≤ k.val + 1) : afterPay len k = .enieRead := by
  have : ¬ (k.val + 1 < len.toNat ∧ k.val + 1 < 4) := by omega
  simp [afterPay, this]

end Sys2Proof.Machine
end

