-- ==== Sys2Proof/Laws/Pool.lean ====
section
/-! SUPPORT. The logical states of the pool's slots and their count (10_state R40, R46), and what a micro-step leaves alone
in every state. -/

namespace Sys2Proof.Machine

/-! ## Logical states (R40) -/

/-- A slot is Idle exactly when its in-use bits are clear and FG has not claimed it. -/
theorem slotState_eq_idle {s : State} {q : Slot} :
    s.slotState q = .idle ↔ conmob (s.mob q).cdmob = 0b00#2 ∧ s.claimed ≠ some q := by
  unfold State.slotState slotStateOf
  split
  · next h => simp [h]; split <;> simp
  · split
    · next h1 h2 => simp; intro h; exact absurd h h2
    · next h1 h2 =>
      have : conmob (s.mob q).cdmob = 0b00#2 := by simpa using h2
      simp [this]

/-- A slot's logical state depends on its registers and on whether `claimed` names it, and on nothing else. -/
theorem slotState_congr {s t : State} {q : Slot} (hm : t.mob q = s.mob q) (hc : t.claimed = s.claimed) :
    t.slotState q = s.slotState q := by
  simp only [State.slotState, hm, hc]

/-! ## Counting Idle slots (R46) -/

theorem idleCount_congr {s t : State}
    (h : ∀ q, inPool q = true → (t.slotState q = .idle ↔ s.slotState q = .idle)) : t.idleCount = s.idleCount := by
  unfold State.idleCount
  apply List.countP_congr
  intro q hq
  simpa using h q (mem_poolSlots.mp hq)

/-- A list without repeats counts one more when one of its members starts to count. -/
theorem countP_one_more {l : List Slot} (hn : l.Nodup) {m : Slot} (hm : m ∈ l) {f g : Slot → Bool}
    (h : ∀ q, q ≠ m → f q = g q) (h1 : f m = false) (h2 : g m = true) : l.countP g = l.countP f + 1 := by
  induction l with
  | nil => simp at hm
  | cons a l ih =>
    have ⟨ha, hl⟩ := List.nodup_cons.mp hn
    rcases List.mem_cons.mp hm with e | e
    · subst e
      rw [List.countP_cons_of_pos h2, List.countP_cons_of_neg (by simp [h1])]
      congr 1
      apply List.countP_congr
      intro x hx
      rw [h x (by rintro rfl; exact ha hx)]
    · have hne : a ≠ m := by rintro rfl; exact ha e
      by_cases hg : g a = true
      · rw [List.countP_cons_of_pos hg, List.countP_cons_of_pos (by rw [h a hne]; exact hg), ih hl e]
      · rw [List.countP_cons_of_neg hg, List.countP_cons_of_neg (by rw [h a hne]; exact hg), ih hl e]

/-- One slot of the pool turns Idle and every other stays as it is. -/
theorem idleCount_one_more {s t : State} {m : Slot} (hm : inPool m = true)
    (h : ∀ q, q ≠ m → (t.slotState q = .idle ↔ s.slotState q = .idle)) (h1 : s.slotState m ≠ .idle)
    (h2 : t.slotState m = .idle) : t.idleCount = s.idleCount + 1 := by
  unfold State.idleCount
  apply countP_one_more (by decide) (mem_poolSlots.mpr hm)
  · intro q hq
    have := h q hq
    by_cases h3 : s.slotState q = .idle
    · simp [h3, this.mpr h3]
    · have h4 : t.slotState q ≠ .idle := fun e => h3 (this.mp e)
      rw [beq_eq_false_iff_ne.mpr h3, beq_eq_false_iff_ne.mpr h4]
  · exact beq_eq_false_iff_ne.mpr h1
  · simp [h2]

/-! ## What a micro-step leaves alone (R26, R31, R42, R45) -/

/-- The fields no micro-step writes: the staging registers, the latched operands, `gie`, CANIE2, the other controller
registers, the bus, and the model's own bookkeeping. -/
structure State.SameOutside (s t : State) : Prop where
  ty : t.ty = s.ty
  len : t.len = s.len
  seq : t.seq = s.seq
  dcnt : t.dcnt = s.dcnt
  pay : t.pay = s.pay
  gie : t.gie = s.gie
  canie2 : t.canie2 = s.canie2
  other : t.other = s.other
  bus : t.bus = s.bus
  held : t.held = s.held
  steps : t.steps = s.steps
  initialised : t.initialised = s.initialised
  turns : t.turns = s.turns
  ticks : t.ticks = s.ticks

theorem State.SameOutside.refl (s : State) : s.SameOutside s :=
  ⟨rfl, rfl, rfl, rfl, rfl, rfl, rfl, rfl, rfl, rfl, rfl, rfl, rfl, rfl⟩

theorem State.SameOutside.raiseFg (s : State) (c : Fault) : s.SameOutside (s.raiseFg c) := by
  unfold State.raiseFg; rw [raise_eq]; exact ⟨rfl, rfl, rfl, rfl, rfl, rfl, rfl, rfl, rfl, rfl, rfl, rfl, rfl, rfl⟩

theorem State.SameOutside.goto {s t : State} (h : s.SameOutside t) (n : Phase) : s.SameOutside (t.goto n) :=
  ⟨h.ty, h.len, h.seq, h.dcnt, h.pay, h.gie, h.canie2, h.other, h.bus, h.held, h.steps, h.initialised, h.turns, h.ticks⟩

theorem regWrite_sameOutside {s t : State} {v : Byte} {r : RegName} (h : s.regWrite v r = some t) :
    s.SameOutside t := by
  cases r <;>
    simp only [State.regWrite, State.pagedWrite, Option.some.injEq, Option.map_eq_some_iff, Option.ite_none_left_eq_some] at h <;>
    obtain ⟨_, ⟨_, rfl⟩, rfl⟩ := h <;>
    exact ⟨rfl, rfl, rfl, rfl, rfl, rfl, rfl, rfl, rfl, rfl, rfl, rfl, rfl, rfl⟩

theorem writeThen_sameOutside (s : State) (r : RegName) (v : Byte) (n : Phase) :
    s.SameOutside (s.writeThen r v n) := by
  unfold State.writeThen
  split
  · next t h => exact (regWrite_sameOutside h).goto n
  · exact .raiseFg s _

/-- No micro-step writes what lies outside the sequencer. -/
theorem fgMicro_sameOutside (p : Params) (s : State) : s.SameOutside (fgMicro p s) := by
  unfold fgMicro
  split
  · exact .refl s
  · unfold fgPoll; split <;> exact ⟨rfl, rfl, rfl, rfl, rfl, rfl, rfl, rfl, rfl, rfl, rfl, rfl, rfl, rfl⟩
  · exact writeThen_sameOutside ..
  · by_cases hp : mobnb s.canpage = 15#4
    · rw [fgScanTest, readThen_illegal hp (by decide) (by decide)]; exact .raiseFg s _
    · by_cases hc : conmob (s.mob (mobnb s.canpage)).cdmob = 0b00#2
      · rw [fgScanTest_found hp hc]; exact (State.SameOutside.refl s).goto _
      · by_cases hs : s.slot.toNat < 14
        · rw [fgScanTest_next hp hc hs]
          exact ⟨rfl, rfl, rfl, rfl, rfl, rfl, rfl, rfl, rfl, rfl, rfl, rfl, rfl, rfl⟩
        · rw [fgScanTest_exhausted hp hc (by omega)]; exact (State.SameOutside.raiseFg s _).goto _
  · by_cases hp : mobnb s.canpage = 15#4
    · rw [fgClrRead, readThen_illegal hp (by decide) (by decide)]; exact .raiseFg s _
    · rw [fgClrRead_eq hp]; exact (State.SameOutside.refl s).goto _
  · exact writeThen_sameOutside ..
  · unfold fgClaim; split
    · exact (State.SameOutside.raiseFg s _).goto _
    · exact ⟨rfl, rfl, rfl, rfl, rfl, rfl, rfl, rfl, rfl, rfl, rfl, rfl, rfl, rfl⟩
  · exact writeThen_sameOutside ..
  · exact writeThen_sameOutside ..
  · exact writeThen_sameOutside ..
  · exact writeThen_sameOutside ..
  · exact writeThen_sameOutside ..
  · exact writeThen_sameOutside ..
  · exact writeThen_sameOutside ..
  · exact ⟨rfl, rfl, rfl, rfl, rfl, rfl, rfl, rfl, rfl, rfl, rfl, rfl, rfl, rfl⟩
  · exact writeThen_sameOutside ..
  · unfold fgArm; split
    · next t h =>
      have := regWrite_sameOutside h
      exact ⟨this.ty, this.len, this.seq, this.dcnt, this.pay, this.gie, this.canie2, this.other, this.bus, this.held,
        this.steps, this.initialised, this.turns, this.ticks⟩
    · exact .raiseFg s _
  · exact (State.SameOutside.refl s).goto _

end Sys2Proof.Machine
end

