-- ==== Sys2Proof/Tests/Slice0.lean ====
section
/-! SUPPORT. Tests. Words and results are those of spec/95_test_vectors.md (V1 to V17) or worked out by hand from the rules
named; the example parameters are that file's (BOOT_CAN_ID = 0x123, BOARD_ID = 0x05). The last part shows, for every
obligation with hypotheses, a concrete state that meets them. -/

namespace Sys2Proof.Tests

open Sys2Proof.Machine

/-! ## Well-formedness: each check refuses an ill-formed line (R110, R111) -/

theorem test_wf_refuses_send_type_256 : (Asm.send 256 0).wf = false := by decide
theorem test_wf_refuses_send_len_8 : (Asm.send 0 8).wf = false := by decide
theorem test_wf_refuses_stage_idx_4 : (Asm.stage 4 0).wf = false := by decide
theorem test_wf_refuses_stage_byte_256 : (Asm.stage 0 256).wf = false := by decide
theorem test_wf_refuses_setseq_256 : (Asm.setseq 256).wf = false := by decide
theorem test_wf_refuses_setdcnt_256 : (Asm.setdcnt 256).wf = false := by decide
theorem test_wf_refuses_reclaim_16 : (Asm.reclaim 16).wf = false := by decide
theorem test_wf_refuses_sendmsg_five_bytes : (Asm.sendmsg 1 2 3 [1, 2, 3, 4, 5]).wf = false := by decide
theorem test_wf_refuses_sendmsg_type : (Asm.sendmsg 256 2 3 [1]).wf = false := by decide
theorem test_wf_refuses_sendmsg_seq : (Asm.sendmsg 1 256 3 [1]).wf = false := by decide
theorem test_wf_refuses_sendmsg_dcnt : (Asm.sendmsg 1 2 256 [1]).wf = false := by decide
theorem test_wf_refuses_sendmsg_payload : (Asm.sendmsg 1 2 3 [1, 256]).wf = false := by decide

/-- LEN 5 to 7 assembles, and faults at run time (R110). -/
theorem test_wf_accepts_send_len_7 : (Asm.send 255 7).assemble = some [0x1FF7#16] := by decide

/-- P1's SENDMSG line (R111). -/
theorem test_sendmsg_words : (Asm.sendmsg 0x01 0x10 0x20 [0xAA, 0xBB]).assemble =
    some [0x20AA#16, 0x24BB#16, 0x3010#16, 0x4020#16, 0x1012#16] := by decide

/-! ## Decoding: words written out bit by bit from R101's patterns (V3) -/

/-- 0001 TTTT TTTT 0LLL with TYPE = 1111 1111, LEN = 100. -/
theorem test_decode_send : decode .fg 0b0001_1111_1111_0100#16 = .cmd (.send 0xFF 4) := by decide
/-- 0001 TTTT TTTT 0LLL with TYPE = 0000 0001, LEN = 010. -/
theorem test_decode_send_small : decode .fg 0b0001_0000_0001_0010#16 = .cmd (.send 0x01 2) := by decide
/-- 0010 II00 BBBB BBBB with IDX = 01, BYTE = 1011 1011. -/
theorem test_decode_stage : decode .fg 0b0010_0100_1011_1011#16 = .cmd (.stage 1 0xBB) := by decide
/-- 0011 0000 BBBB BBBB with BYTE = 0001 0000. -/
theorem test_decode_setseq : decode .fg 0b0011_0000_0001_0000#16 = .cmd (.setseq 0x10) := by decide
/-- 0100 0000 BBBB BBBB with BYTE = 0010 0000. -/
theorem test_decode_setdcnt : decode .fg 0b0100_0000_0010_0000#16 = .cmd (.setdcnt 0x20) := by decide
/-- 1000 0000 0000 SSSS with SLOT = 1110. -/
theorem test_decode_reclaim : decode .irq 0b1000_0000_0000_1110#16 = .cmd (.reclaim 14) := by decide

theorem test_decode_illegal_opcodes :
    [0x0000#16, 0x5000, 0x6000, 0x7000, 0x9000, 0xA000, 0xB000, 0xC000, 0xD000, 0xE000, 0xF000, 0xFFFF].all
      (fun w => decode .fg w == .illegal .reservedOpcode) = true := by decide
theorem test_decode_illegal_reserved_bits :
    [0x1008#16, 0x101D, 0x21AA, 0x22AA, 0x3110, 0x3810, 0x4F20].all
      (fun w => decode .fg w == .illegal .reservedBits) = true := by decide
theorem test_decode_illegal_reserved_bits_irq :
    [0x8018#16, 0x8808].all (fun w => decode .irq w == .illegal .reservedBits) = true := by decide
theorem test_decode_illegal_ports : decode .fg 0x8008#16 = .illegal .wrongPort ∧
    decode .irq 0x1012#16 = .illegal .wrongPort ∧ decode .irq 0x3010#16 = .illegal .wrongPort := by decide

/-! ## Small states -/

/-- The vectors' example parameters; FG is scheduled where no turn is fixed. -/
def params : Params :=
  { bootCanId := 0x123, boardId := 0x05, regAddr := RegName.defaultAddr, fairCtrl := true, fairIrq := true,
    turn := fun _ => .fg, resetDraw := fun _ => ResetDraw.named,
    initDraw := fun _ => ⟨0xFF, 0xFF, 0xFF, Vector.replicate 15 ⟨0xFF, 0xFF, 0, 0, 0, 0, Vector.replicate 8 0⟩,
      OtherRegs.familyReset⟩ }

/-- The vectors' S0: the initialisation has run, with ENA/STB, ENIT and ENTX on. -/
def clean : State :=
  { State.reset with
    initialised := true
    other := { OtherRegs.familyReset with cangcon := 0x02, cangie := 0x90 } }

theorem clean_ready : ControllerReady clean := ⟨rfl, by decide, by decide, by decide⟩

/-- S0 with everything staged. -/
def staged : State :=
  { clean with seq := ⟨0x10, true⟩, dcnt := ⟨0x20, true⟩,
               pay := #v[⟨0xAA, true⟩, ⟨0xBB, true⟩, ⟨0xCC, true⟩, ⟨0xDD, true⟩] }

/-- A SEND TYPE = 1 in progress at a phase, its slot register and page at `q`. -/
def sendingAt (ph : Phase) (q : Slot) (len : BitVec 3) : State :=
  { staged with phase := ph, slot := q, ty := 0x01, len := len, canpage := pageValue q }

/-- The mailbox V1 leaves in slot 8, with its status. -/
def v1Mailbox (status : Byte) : Mailbox :=
  ⟨status, 0x46, 0x24, 0x60, 0, 0, #v[0x05, 0x01, 0x10, 0x20, 0xAA, 0xBB, 0, 0]⟩

/-- `s` with V1's mailbox in slot `q` and one Idle slot less. -/
def withFrame (q : Slot) (status : Byte) (s : State) : State :=
  { s with mobs := mobSet s.mobs q (v1Mailbox status), canie1 := 0x7F, freeCount := s.freeCount - 1 }

/-- `s` with its next turn fixed. -/
def soon (t : Turn) (s : State) : State := { s with turns := [t] }

/-- One field of the state an outcome goes on with. -/
def field {α : Type} (f : State → α) : Host.Outcome State Fault Refusal → Option α
  | .next s => some (f s)
  | .fault _ => none
  | .refused _ => none

/-! ## The commands, one step each -/

/-- V4. -/
theorem test_stage_three : field (fun t => (t.pay[3], t.pay[0].w)) (exec (.stage 3 0xFF) clean) =
    some (⟨0xFF, true⟩, false) := by decide
/-- V4: the last write wins. -/
theorem test_stage_again : field (fun t => t.pay[0]) (exec (.stage 0 0x55) staged) = some ⟨0x55, true⟩ := by decide
/-- V4, through the port. -/
theorem test_setseq_step : field (fun t => (t.seq, t.dcnt.w)) (step (clean.withFetchWord 16 0x3010)) =
    some (⟨0x10, true⟩, false) := by decide
/-- V17: the FG port holds while FG is busy. -/
theorem test_setseq_held : field (fun t => (t.seq.val, t.held))
      (step (soon (.host (.issue 0x3022)) (sendingAt .poll 8 0))) =
    some (0x10, some (.issue 0x3022)) := by decide
/-- V4, through the port. -/
theorem test_setdcnt_step : field (fun t => (t.dcnt, t.seq.w)) (step (clean.withFetchWord 16 0x4020)) =
    some (⟨0x20, true⟩, false) := by decide
/-- V1 row 0. -/
theorem test_send_accepted : field (fun t => (t.phase, t.ty, t.len, t.fault)) (step (staged.withFetchWord 16 0x1012)) =
    some (.poll, 0x01, 2, none) := by decide
/-- V12, V13: LEN 5 is ERR_LENGTH; the first fault stays. -/
theorem test_send_length : field (fun t => (t.phase, t.fault)) (step (staged.withFetchWord 16 0x1015)) =
    some (.idle, some ⟨.errLength, .fg, 0x1015⟩) := by decide
/-- V10 f. -/
theorem test_reclaim : field (fun t => (t.freeCount, (t.mob 10).cdmob, (t.mob 10).stmob, t.canpage, t.canie1))
      (exec (.reclaim 10) { withFrame 10 0x40 clean with freeCount := 3, canpage := 0xB6, canie1 := 0x0F }) =
    some (4, 0x00, 0x00, 0xB6, 0x0F) := by decide
/-- V10 i: the range check comes first. -/
theorem test_reclaim_range : field State.fault (exec (.reclaim 7) { withFrame 7 0x40 clean with freeCount := 7 }) =
    some (some ⟨.errSlot, .irq, 0x8007⟩) := by decide

/-! ## The micro-steps (V1, V8, V14), IRQ, CTRL, HOST, reset and initialisation -/

theorem test_poll : (fgMicro params (sendingAt .poll 0 2)).slot = 8 := by decide
theorem test_scan_page : (fgMicro params (sendingAt .scanPage 11 2)).canpage = 0xB0 := by decide
/-- V6's last line: only bits 7:6 are tested. -/
theorem test_scan_test_old_bits :
    (fgMicro params { sendingAt .scanTest 8 0 with
      mobs := mobSet clean.mobs 8 { v1Mailbox 0 with cdmob := 0x3F } }).phase = .clrRead := by decide
/-- V14: slot 14 in use. -/
theorem test_scan_exhausted :
    let t := fgMicro params (withFrame 14 0 (sendingAt .scanTest 14 0));
    (t.phase, t.fault, t.freeCount, t.canpage) = (.idle, some ⟨.errNoslot, .fg, 0x1010⟩, 6, 0xE0) := by decide
/-- R158's example. -/
theorem test_clr_write :
    ((fgMicro params { sendingAt .clrWrite 8 2 with
      mobs := mobSet clean.mobs 8 { v1Mailbox 0x11 with cdmob := 0 } }).mob 8).stmob = 0x00 := by decide
theorem test_claim : let t := fgMicro params (sendingAt .claim 8 2);
    (t.freeCount, t.claimed, t.phase) = (6, some 8, .page) := by decide
theorem test_wrid1 : ((fgMicro params (sendingAt .wrid1 8 2)).mob 8).idt1 = 0x24 := by decide
theorem test_wrid2 : ((fgMicro params (sendingAt .wrid2 8 2)).mob 8).idt2 = 0x60 := by decide
theorem test_wrhdr_board : let t := fgMicro params (sendingAt (.wrhdr 0) 8 2);
    ((t.mob 8).msg[0], t.canpage, t.phase) = (0x05, 0x81, .wrhdr 1) := by decide
/-- V9: the cursor wraps after the eighth byte. -/
theorem test_wrpay_last : let t := fgMicro params { sendingAt (.wrpay 3) 14 4 with canpage := 0xE7 };
    ((t.mob 14).msg[7], t.canpage, t.phase) = (0xDD, 0xE0, .enieRead) := by decide
/-- V8's last line. -/
theorem test_enie_write : (fgMicro params { sendingAt .enieWrite 11 0 with tmp := 0x01 }).canie1 = 0x09 := by decide
theorem test_arm : let t := fgMicro params { sendingAt .arm 8 2 with claimed := some 8 };
    ((t.mob 8).cdmob, t.claimed, t.phase) = (0x46, none, .done) := by decide
/-- V11, first line. -/
theorem test_tx : field (fun t => (t.bus, (t.mob 8).stmob, (t.mob 8).cdmob)) (step (soon (.ctrl 8) (withFrame 8 0 clean))) =
    some ([⟨0x123, 6, [0x05, 0x01, 0x10, 0x20, 0xAA, 0xBB]⟩], 0x40, 0x46) := by decide
/-- V11, last paragraph. -/
theorem test_tx_not_twice : field State.bus (step (soon (.ctrl 8) (withFrame 8 0x40 clean))) = some [] := by decide
/-- R192: with `gie` = 0 nothing is served. -/
theorem test_irq_masked : field State.freeCount (step (soon (.irq 8) (withFrame 8 0x40 clean))) = some 6 := by decide
theorem test_irq_served :
    field State.freeCount (step (soon (.irq 8) { withFrame 8 0x40 clean with gie := true })) = some 7 := by decide
theorem test_gie : field State.gie (step (soon (.host (.setGie true)) clean)) = some true := by decide
/-- R255 step 2 over register contents that break INIT_CLEAN: the pool is cleared, mailbox 7 is not, CANIE1 bit 7 reads 0. -/
theorem test_init : field (fun t => ((t.mob 8).cdmob, (t.mob 14).stmob, (t.mob 7).cdmob, t.canie1, t.initialised))
      (stepWith params (soon .init State.reset)) = some (0x00, 0x00, 0xFF, 0x7F, true) := by decide
/-- R255 step 2, R218: ENIT and ENTX, and the controller, are on. -/
theorem test_init_enables : field (fun t => (t.other.cangie, t.other.cangcon))
      (stepWith params (soon .init State.reset)) = some (0x90, 0x02) := by decide
theorem test_reset_turn : field (fun t => (t.freeCount, t.phase, t.seq.w, t.bus))
      (stepWith params (soon .reset (sendingAt .arm 8 2))) = some (7, .idle, false, []) := by decide
/-- The table's numbering gives the same word (SEND row). -/
theorem test_table_word : decodeTableWord 16 0x1FF4 = some (.send 0xFF 4) ∧ decodeTableWord 16 0x800E = some (.reclaim 14) ∧
    decodeTableWord 16 0x1008 = none := by decide

/-! ## Witnesses: a state that meets the hypotheses of each obligation -/

/-- A table word that decodes, on each port (EncodeOfDecode, PlacedWordRunsNext). -/
theorem test_witness_decodes : decode .fg 0x1FF4#16 = .cmd (.send 0xFF 4) ∧ decode .irq 0x800E#16 = .cmd (.reclaim 14) ∧
    decodeTableWord 16 0x4FF4 = none ∧ decodeTableWord 16 0x40FF = some (.setdcnt 0xFF) := by decide

/-- A reset state; turns of reset and of the initialisation (ResetGivesTheFixedValues, InitialisationGivesInitClean). -/
theorem test_witness_reset (t : Turn) : IsReset (soon t State.reset) ∧ (soon t State.reset).initialised = false ∧
    nextTurn Config.params (soon t State.reset) = t :=
  ⟨⟨rfl, rfl, rfl, rfl, rfl, by intro k; match k with | 0 | 1 | 2 | 3 => rfl, rfl, rfl, rfl, rfl, rfl, rfl⟩, rfl, rfl⟩

/-- INIT_CLEAN with the reserved bit clear (InitCleanGivesLaunchInvariant). -/
theorem test_witness_init_clean : InitClean clean ∧ clean.canie1.getLsbD 7 = false :=
  ⟨⟨by decide, by decide, rfl, rfl, rfl, rfl, rfl, clean_ready⟩, rfl⟩

/-- StagingCommandsWriteTheirByte, StagingCommandsFrame: each command, idle and busy. -/
theorem test_witness_staging : staged.phase = .idle ∧ (sendingAt .poll 8 2).phase ≠ .idle ∧
    (∃ t, exec (.stage 3 0xFF) staged = .next t) ∧ (∃ t, exec (.setseq 0xFF) staged = .next t) ∧
    (∃ t, exec (.setdcnt 0) (sendingAt .poll 8 2) = .next t) :=
  ⟨rfl, by decide, ⟨_, rfl⟩, ⟨_, rfl⟩, ⟨_, rfl⟩⟩

/-- SendIsAccepted, at LEN = 4 with everything staged and at LEN = 0 with no payload byte staged. -/
theorem test_witness_send_accepted :
    (staged.phase = .idle ∧ (4#3).toNat ≤ 4 ∧ staged.seq.w = true ∧ staged.dcnt.w = true ∧
      ∀ k : Fin 4, k.val < (4#3).toNat → (staged.pay[k]).w = true) ∧
    (let s : State := { staged with pay := clean.pay };
      s.seq.w = true ∧ s.dcnt.w = true ∧ ∀ k : Fin 4, k.val < (0#3).toNat → (s.pay[k]).w = true) := by decide

/-- SendIsRefusedInOrder, one state for each clause at its boundary. -/
theorem test_witness_send_refused :
    4 < (5#3).toNat ∧ 4 < (7#3).toNat ∧ ((4#3).toNat ≤ 4 ∧ { staged with seq := ⟨0, false⟩ }.seq.w = false) ∧
    { staged with dcnt := ⟨0, false⟩ }.dcnt.w = false ∧
    (let s : State := { staged with pay := #v[⟨0, true⟩, ⟨0, true⟩, ⟨0, true⟩, ⟨0, false⟩] };
      s.phase = .idle ∧ s.seq.w = true ∧ s.dcnt.w = true ∧ ∃ k : Fin 4, k.val < (4#3).toNat ∧ (s.pay[k]).w = false) := by
  decide

/-- ReclaimReleasesTheSlot, SecondReclaimIsRefused, at the pool's two ends. -/
theorem test_witness_reclaim : [8#4, 14#4].all (fun q =>
    let s := withFrame q 0x40 clean;
    inPool q && conmob (s.mob q).cdmob == 0b01#2 && txok (s.mob q).stmob && s.freeCount != 7#8 &&
      s.reclaimCheck q == none) = true := by decide

/-- ReclaimIsRefusedInOrder, each clause. -/
theorem test_witness_reclaim_refused :
    ((7#4).toNat < 8 ∧ 14 < (15#4).toNat) ∧ (inPool 8#4 = true ∧ conmob (clean.mob 8).cdmob ≠ 0b01#2) ∧
    (inPool 14#4 = true ∧ txok ((withFrame 14 0 clean).mob 14).stmob = false) ∧
    (let s : State := { withFrame 14 0x40 clean with freeCount := 7 };
      conmob (s.mob 14).cdmob = 0b01#2 ∧ txok (s.mob 14).stmob = true ∧ s.freeCount = 7#8) := by decide

/-- BusyFgPortHolds, HostWritesGie, StepRunsTheDecodedCommand, IllegalWordOnlyRecordsAFault: HOST's turn, idle and busy,
with its own operation and with one that waits; a word on the IRQ port. -/
theorem test_witness_ports :
    (∀ op, nextTurn Config.params (soon (.host op) staged) = .host op) ∧ staged.phase = .idle ∧
    (sendingAt .done 14 4).phase ≠ .idle ∧ (Instr.send 0xFF 7).port = .fg ∧
    (soon (.host (.issue 0x1FF4)) staged).held.getD (.issue 0x1FF4) = .issue 0x1FF4 ∧
    ({ staged with held := some (.setGie true) } : State).held.getD (.issue 0) = .setGie true ∧
    decode .fg 0x1FF4#16 = .cmd (.send 0xFF 4) ∧ decode .fg 0xFFFF#16 = .illegal .reservedOpcode ∧
    nextTurn Config.params (soon (.irqPort 0x800F) staged) = .irqPort 0x800F ∧
    decode .irq 0x800F#16 = .cmd (.reclaim 15) ∧ decode .irq 0x801F#16 = .illegal .reservedBits :=
  ⟨fun _ => rfl, rfl, by decide, rfl, rfl, rfl, by decide, by decide, rfl, by decide, by decide⟩

/-- FirstFaultIsKept: a state with a fault that goes on. -/
theorem test_witness_fault : let s : State := soon .fg { staged with fault := some ⟨.errLength, .fg, 0x1015⟩ };
    staged.fault = none ∧ s.fault = some ⟨.errLength, .fg, 0x1015⟩ ∧ nextTurn Config.params s ≠ .reset ∧
    ∃ t, step s = .next t :=
  ⟨rfl, rfl, by decide, ⟨_, rfl⟩⟩

/-- IrqServesOnlyPendingSlots: slot 14 pending and enabled; masked; slot 7. -/
theorem test_witness_irq : let s : State := soon (.irq 14) { withFrame 14 0x40 clean with gie := true };
    nextTurn Config.params s = .irq 14 ∧
    (s.gie = true ∧ inPool 14#4 = true ∧ txok (s.mob 14).stmob = true ∧ ieBit s.canie1 14#4 = true) ∧
    (withFrame 14 0x40 clean).gie = false ∧ inPool 7#4 = false := by decide

/-- TransmitSendsTheFrame and each way TransmitHoldsOtherwise can apply. -/
theorem test_witness_tx : let s : State := soon (.ctrl 14) (withFrame 14 0 clean);
    (nextTurn Config.params s = .ctrl 14 ∧ inPool 14#4 = true ∧ conmob (s.mob 14).cdmob = 0b01#2 ∧
      txok (s.mob 14).stmob = false ∧ ide (s.mob 14).cdmob = false ∧ rtrtag (s.mob 14).idt4 = false) ∧
    inPool 15#4 = false ∧ conmob (s.mob 8).cdmob ≠ 0b01#2 ∧ txok ((withFrame 14 0x40 clean).mob 14).stmob = true ∧
    ide 0x54#8 = true ∧ rtrtag 0x04#8 = true := by decide

/-- FG's turn, idle and busy (FgTurnRunsOneMicroStep). -/
theorem test_witness_fg : nextTurn Config.params (soon .fg staged) = .fg ∧ (soon .fg staged).phase = .idle ∧
    (soon .fg (sendingAt .arm 14 4)).phase ≠ .idle := by decide

/-- Every phase with a page that selects a mailbox (the micro-step obligations from PollSpinsOrStartsTheScan to
ArmPublishesTheMailboxAndDoneReturns), with the counter at 0, 1 and 7. -/
theorem test_witness_phases (ph : Phase) : (sendingAt ph 14 4).phase = ph ∧ mobnb (sendingAt ph 14 4).canpage ≠ 15#4 ∧
    ainc (sendingAt ph 14 4).canpage = false ∧ inPool (sendingAt ph 14 4).slot = true ∧
    (sendingAt ph 14 4).len.toNat ≤ 4 ∧ (sendingAt ph 14 4).freeCount ≠ 0#8 ∧
    ({ sendingAt ph 14 4 with freeCount := 0 } : State).freeCount = 0#8 :=
  ⟨rfl, by show mobnb 0xE0#8 ≠ 15#4; decide, by show ainc 0xE0#8 = false; decide, rfl,
    by show (4#3).toNat ≤ 4; decide, by show 7#8 ≠ 0#8; decide, rfl⟩

/-- ScanTestOutcomes: a free slot, slot 13 in use, slot 14 in use. -/
theorem test_witness_scan_test :
    (sendingAt .scanTest 8 0 |>.mob 8).cdmob.extractLsb' 6 2 = 0b00#2 ∧
    (let s := withFrame 13 0 (sendingAt .scanTest 13 0);
      mobnb s.canpage = 13#4 ∧ (s.mob 13).cdmob.extractLsb' 6 2 ≠ 0b00#2 ∧ s.slot.toNat < 14) ∧
    (let s := withFrame 14 0 (sendingAt .scanTest 14 0);
      mobnb s.canpage = 14#4 ∧ (s.mob 14).cdmob.extractLsb' 6 2 ≠ 0b00#2 ∧ 14 ≤ s.slot.toNat) := by decide

/-- R150: WRPAY(0) .. WRPAY(len-1), absent when len = 0. -/
theorem test_follows : Phase.follows 0 (.wrhdr 3) .enieRead = true ∧ Phase.follows 0 (.wrhdr 3) (.wrpay 0) = false ∧
    Phase.follows 2 (.wrhdr 3) .enieRead = false ∧ Phase.follows 2 (.wrpay 0) .enieRead = false ∧
    Phase.follows 2 (.wrpay 1) .enieRead = true ∧ Phase.follows 2 (.wrpay 1) (.wrpay 2) = false := by decide

/-- PageFifteenIsIllegal and, with another page, CanmsgAccessMovesTheCursor. -/
theorem test_witness_page_fifteen : mobnb ({ sendingAt (.wrpay 3) 14 4 with canpage := 0xF8 } : State).canpage = 15#4 ∧
    mobnb ({ staged with canpage := 0xE8 } : State).canpage ≠ 15#4 ∧ ainc 0xE8#8 = true ∧ ainc 0xE7#8 = false := by
  decide

/-! ### States inside a SEND, for the invariants -/

/-- A SEND of two payload bytes about to arm slot 8, with whatever parameters (R171). -/
def aboutToArm (p : Params) : State :=
  { staged with
    phase := .arm, slot := 8, ty := 0x01, len := 2, claimed := some 8, freeCount := 6, canpage := 0x86, canie1 := 0x01
    mobs := mobSet clean.mobs 8 ⟨0, 0, idt1Value p.bootCanId, idt2Value p.bootCanId, 0, 0,
      #v[p.boardId, 0x01, 0x10, 0x20, 0xAA, 0xBB, 0, 0]⟩ }

theorem test_seq_inv_about_to_arm (p : Params) (t : Turn) : SeqInv (soon t (aboutToArm p)) where
  counterLe := of_decide_eq_true rfl
  ieReserved := by show (0x01#8).getLsbD 7 = false; decide
  slotInPool := fun _ _ => rfl
  lenLe := fun _ => of_decide_eq_true rfl
  payLt := fun _ h => by cases h
  pageSelects := fun _ => by show mobnb 0x86#8 = 8#4; decide
  cursor := fun _ => ⟨by show ainc 0x86#8 = false; decide, by show (indx 0x86#8).toNat = (4 + (2#3).toNat) % 8; decide⟩
  counterPos := fun h => by cases h
  foundFree := fun _ => by show conmob 0x00#8 = 0b00#2; decide
  foundClear := fun _ => by show txok 0x00#8 = false; decide
  owner := rfl
  tmpCopy := fun h => by cases h

theorem test_frame_inv_about_to_arm (p : Params) (t : Turn) : FrameInv p (soon t (aboutToArm p)) where
  idt1 := fun _ => rfl
  idt2 := fun _ => rfl
  idt3 := fun _ => rfl
  idt4 := fun _ => rfl
  msg := fun j hj => by
    match j with
    | 0 | 1 | 2 | 3 | 4 | 5 => rfl
    | 6 | 7 => exact absurd hj (by simp [soon, aboutToArm, Phase.msgWritten])
  ie := fun _ => by show ieBit 0x01#8 8#4 = true; decide

theorem pool_cases {q : Slot} (h : inPool q = true) :
    q = 8 ∨ q = 9 ∨ q = 10 ∨ q = 11 ∨ q = 12 ∨ q = 13 ∨ q = 14 := by revert q; decide

/-- The control register of every pool slot in that state is 0. -/
theorem aboutToArm_cdmob (p : Params) (t : Turn) {q : Slot} (hq : inPool q = true) :
    ((soon t (aboutToArm p)).mob q).cdmob = 0x00#8 := by
  rcases pool_cases hq with rfl | rfl | rfl | rfl | rfl | rfl | rfl <;> rfl

/-- LaunchInvariantKept, and the hypotheses of the obligations over `SeqInv` states: a SEND in progress after a launch. -/
theorem test_launch_inv_about_to_arm (p : Params) (t : Turn) : LaunchInv p (soon t (aboutToArm p)) where
  ready := ⟨rfl, clean_ready.running, clean_ready.interrupts, clean_ready.transmit⟩
  seq := test_seq_inv_about_to_arm p t
  frame := test_frame_inv_about_to_arm p t
  counter := by
    have h : ∀ q ∈ poolSlots, ((soon t (aboutToArm p)).slotState q == .idle) = (some 8#4 != some q) := by
      intro q hq
      have hi : inPool q = true := by revert q; decide
      simp only [State.slotState, slotStateOf, aboutToArm_cdmob p t hi]
      show ((if (some 8#4 == some q) = true then SlotState.claimed else SlotState.idle) == SlotState.idle) = _
      rw [bne]
      cases (some 8#4 == some q) <;> decide
    show 6 = State.idleCount _
    rw [State.idleCount, List.countP_congr (q := fun q => some 8#4 != some q) (fun q hq => by rw [h q hq])]
    decide
  scan := fun h => by cases h
  noForeign := fun q hq h => by
    unfold State.slotState slotStateOf at h
    rw [aboutToArm_cdmob p t hq] at h
    revert h
    generalize txok _ = b
    cases b <;> cases ((soon t (aboutToArm p)).claimed == some q) <;> decide
  armed := fun q hq h => by rw [aboutToArm_cdmob p t hq] at h; exact absurd h (by decide)
  ie := fun q hq h => by rw [aboutToArm_cdmob p t hq] at h; exact absurd h (by decide)
  bus := fun f hf => by cases hf

/-- After a launch, slot 14 completed and not yet reclaimed, `gie` = 1, whatever the parameters. -/
def completed (p : Params) : State :=
  { staged with
    gie := true, freeCount := 6, canpage := 0xE6, canie1 := 0x40
    mobs := mobSet clean.mobs 14 ⟨0x40, 0x46, idt1Value p.bootCanId, idt2Value p.bootCanId, 0, 0,
      #v[p.boardId, 0x01, 0x10, 0x20, 0xAA, 0xBB, 0, 0]⟩ }

/-- The control registers of the pool's slots in that state. -/
theorem completed_cdmob (p : Params) (t : Turn) {q : Slot} (hq : inPool q = true) :
    ((soon t (completed p)).mob q).cdmob = if q = 14 then 0x46#8 else 0x00#8 := by
  rcases pool_cases hq with rfl | rfl | rfl | rfl | rfl | rfl | rfl <;> rfl

theorem completed_idle (p : Params) (t : Turn) {q : Slot} (hq : inPool q = true) :
    (soon t (completed p)).slotState q = if q = 14 then .completed else .idle := by
  unfold State.slotState slotStateOf
  rw [completed_cdmob p t hq]
  by_cases h : q = 14
  · subst h
    have : ((soon t (completed p)).mob 14).stmob = 0x40#8 := rfl
    rw [this]; rfl
  · rw [if_neg h, if_neg h]
    generalize txok _ = b
    show (if conmob 0#8 = 1#2 then _ else if conmob 0#8 ≠ 0#2 then _ else if (none == some q) = true then _ else _) = _
    cases b <;> rfl

theorem test_launch_inv_completed (p : Params) (t : Turn) : LaunchInv p (soon t (completed p)) where
  ready := ⟨rfl, clean_ready.running, clean_ready.interrupts, clean_ready.transmit⟩
  seq :=
    { counterLe := of_decide_eq_true rfl, ieReserved := by show (0x40#8).getLsbD 7 = false; decide
      slotInPool := fun h => absurd rfl h, lenLe := fun h => absurd rfl h, payLt := fun _ h => (by cases h)
      pageSelects := fun h => (by cases h), cursor := fun h => (by cases h), counterPos := fun h => (by cases h)
      foundFree := fun h => (by cases h), foundClear := fun h => (by cases h), owner := rfl, tmpCopy := fun h => (by cases h) }
  frame :=
    { idt1 := fun h => absurd h (by show ¬ 1 ≤ 0; decide), idt2 := fun h => absurd h (by show ¬ 2 ≤ 0; decide)
      idt3 := fun h => absurd h (by show ¬ 3 ≤ 0; decide), idt4 := fun h => absurd h (by show ¬ 4 ≤ 0; decide)
      msg := fun _ h => absurd h (Nat.not_lt_zero _), ie := fun h => (by cases h) }
  counter := by
    show 6 = State.idleCount _
    rw [State.idleCount, List.countP_congr (q := fun q => q != 14#4)
      (fun q hq => by
        rw [completed_idle p t (by revert q; decide)]
        by_cases h : q = 14 <;> simp [h])]
    decide
  scan := fun h => by cases h
  noForeign := fun q hq => by rw [completed_idle p t hq]; split <;> decide
  armed := fun q hq h => by
    rw [completed_cdmob p t hq] at h
    split at h
    · next e =>
      subst e
      exact ⟨frameId_split p.bootCanId, by show ide 0x46#8 = false; decide, by show rtrtag 0x00#8 = false; decide,
        by show 4 ≤ (dlcField 0x46#8).toNat; decide, by show (dlcField 0x46#8).toNat ≤ 8; decide, rfl⟩
    · exact absurd h (by decide)
  ie := fun q hq h => by
    rw [completed_cdmob p t hq] at h
    split at h
    · next e => subst e; show ieBit 0x40#8 14#4 = true; decide
    · exact absurd h (by decide)
  bus := fun f hf => by cases hf

/-- IrqServesTheRoutedInterrupt: in that state, IRQ's turn for the completed slot, and for one that is not pending. -/
theorem test_witness_routed (p : Params) :
    (let s := soon (.irq 14) (completed p);
      LaunchInv p s ∧ nextTurn Config.params s = .irq 14 ∧ s.gie = true ∧ inPool 14#4 = true ∧ s.routed 14 = true) ∧
    (let s := soon (.irq 8) (completed p);
      LaunchInv p s ∧ nextTurn Config.params s = .irq 8 ∧ s.routed 8 = false) :=
  ⟨⟨test_launch_inv_completed p _, rfl, rfl, rfl, by
      show (txok 0x40#8 && ieBit 0x40#8 14#4 && enit 0x90#8 && entx 0x90#8) = true; decide⟩,
    test_launch_inv_completed p _, rfl, by
      show (txok 0x00#8 && ieBit 0x40#8 8#4 && enit 0x90#8 && entx 0x90#8) = false; decide⟩

/-- MicroStepsFollowTheOrder, AtMostThirtyFourMicroSteps, SequencerInvariantKept, LaunchInvariantKept,
SlotsFollowTheLifeCycle, StagingIsStableDuringASend, OnlyClaimAndReclaimMoveTheCounter, FrameUnderConstructionStands: FG's
turn in that state. -/
theorem test_witness_fg_turn (p : Params) : let s := soon .fg (aboutToArm p);
    s.phase ≠ .idle ∧ s.phase ≠ .poll ∧ s.initialised = true ∧ nextTurn Config.params s ≠ .reset ∧ inPool 8#4 = true ∧
    s.phase.found = true ∧ ∃ t, step s = .next t :=
  ⟨by show Phase.arm ≠ .idle; decide, by show Phase.arm ≠ .poll; decide, rfl, by show Turn.fg ≠ .reset; decide, rfl, rfl,
    ⟨_, rfl⟩⟩

/-- ScanAlwaysFindsASlot: a step from a launched state that records a fault. -/
theorem test_witness_no_slot (p : Params) : let s := soon (.irqPort 0x8007) (aboutToArm p);
    s.fault = none ∧ nextTurn Config.params s ≠ .reset ∧ ∃ t r, step s = .next t ∧ t.fault = some r :=
  ⟨rfl, by show Turn.irqPort 0x8007 ≠ .reset; decide, _, _, rfl, rfl⟩

/-- OtherAgentsLeaveTheSendAlone, RegistersOutsideTheBlockAreLeftAlone, OnlyCtrlAppendsToTheBus: HOST's turn in it. -/
theorem test_witness_other_agents (p : Params) : let s := soon (.host (.setGie true)) (aboutToArm p);
    nextTurn Config.params s ≠ .fg ∧ nextTurn Config.params s ≠ .init ∧ nextTurn Config.params s ≠ .reset ∧
    s.phase.found = true ∧ (7#4).toNat < 8 ∧ ∃ t, step s = .next t :=
  ⟨by show Turn.host (.setGie true) ≠ .fg; decide, by show Turn.host (.setGie true) ≠ .init; decide, by show Turn.host (.setGie true) ≠ .reset; decide, rfl,
    by decide, ⟨_, rfl⟩⟩

/-- ArmedSlotIsNotTouched: an idle FG and an armed slot that CTRL transmits. -/
theorem test_witness_armed : let s := soon (.ctrl 14) (withFrame 14 0 clean);
    SeqInv s ∧ s.initialised = true ∧ nextTurn Config.params s ≠ .reset ∧ inPool 14#4 = true ∧
    conmob (s.mob 14).cdmob = 0b01#2 ∧ ∃ t, step s = .next t :=
  ⟨{ counterLe := by decide, ieReserved := rfl, slotInPool := by decide, lenLe := by decide, payLt := by decide,
     pageSelects := by decide, cursor := by decide, counterPos := by decide, foundFree := by decide,
     foundClear := by decide, owner := rfl, tmpCopy := by decide },
    rfl, by decide, rfl, rfl, ⟨_, rfl⟩⟩

/-- PollHangsWithoutInterrupts. -/
theorem test_witness_poll : let s := soon (.irq 8) { withFrame 8 0x40 (sendingAt .poll 8 4) with freeCount := 0 };
    s.phase = .poll ∧ s.freeCount = 0#8 ∧ s.gie = false ∧ (∀ w, nextTurn Config.params s ≠ .irqPort w) ∧
    nextTurn Config.params s ≠ .reset ∧ ∃ t, step s = .next t :=
  ⟨rfl, rfl, rfl, (fun _ h => by cases h), by decide, ⟨_, rfl⟩⟩

/-- SendArmsTheLowestFreeSlot, with slot 8 free, and with only slot 14 free. -/
theorem test_witness_lowest_free :
    (let s := sendingAt .poll 0 0;
      s.freeCount ≠ 0#8 ∧ inPool 8#4 = true ∧ conmob (s.mob 8).cdmob = 0b00#2 ∧
      ∀ a, inPool a = true → a.toNat < (8#4).toNat → conmob (s.mob a).cdmob ≠ 0b00#2) ∧
    (let s := [8#4, 9#4, 10#4, 11#4, 12#4, 13#4].foldl (fun s q => withFrame q 0 s) (sendingAt .poll 0 4);
      s.phase = .poll ∧ s.freeCount ≠ 0#8 ∧ s.len.toNat ≤ 4 ∧ inPool 14#4 = true ∧ conmob (s.mob 14).cdmob = 0b00#2 ∧
      ∀ a, inPool a = true → a.toNat < (14#4).toNat → conmob (s.mob a).cdmob ≠ 0b00#2) := by decide

/-- SendmsgExpands, at four and at five payload bytes. -/
theorem test_witness_sendmsg : [0xFF#8, 0, 1, 2].length ≤ 4 ∧ 4 < [0xFF#8, 0, 1, 2, 3].length := by decide

/-! ### Runs -/

/-- A run from reset in which nothing is issued (CounterStaysInRange, OwnershipInvariant). -/
theorem test_witness_run_from_reset : let r : Nat → State := fun n => { State.reset with ticks := n }
    IsRun params r ∧ IsReset (r 0) :=
  ⟨fun _ => rfl, (test_witness_reset .fg).1.counter, rfl, rfl, rfl, rfl, fun k => (test_witness_reset .fg).1.pay k,
    rfl, rfl, rfl, rfl, rfl, rfl⟩

/-! A run of one whole message: HOST issues `SEND 0x01, 0`, FG runs its 19 micro-steps, CTRL transmits, IRQ reclaims. -/

/-- Its parameters: the turns in that order, then FG's for ever. -/
def liveParams : Params :=
  { params with turn := fun n => if n = 0 then .host (.issue 0x1010) else if n = 20 then .ctrl 8
                                 else if n = 21 then .irq 8 else .fg }

/-- Its first state. -/
def liveStart : State := { staged with gie := true }

/-- Its first states, one step after another. -/
def liveAt : Nat → State
  | 0 => liveStart
  | n + 1 =>
    match stepWith liveParams (liveAt n) with
    | .next t => t
    | _ => liveAt n

/-- `s` at another draw. -/
def atTick (s : State) (n : Nat) : State := { s with ticks := n }

theorem atTick_idle_step {p : Params} {s : State} {n : Nat} (hp : s.phase = .idle) (ht : s.turns = [])
    (hn : p.turn n = .fg) : stepWith p (atTick s n) = .next (atTick s (n + 1)) := by
  cases s
  simp only at hp ht
  subst hp ht
  simp [stepWith, nextTurn, atTick, State.pop, hn, takeTurn, fgTurn]

/-- The whole run: after the 22 turns FG is idle and nothing is left to do. -/
def liveRun (n : Nat) : State := if n ≤ 22 then liveAt n else atTick (liveAt 22) n

theorem test_live_prefix : (List.range 22).all (fun n => (field id (stepWith liveParams (liveAt n))).isSome) = true := by
  decide

/-- What V1, V11 and R190 leave at its end. -/
theorem test_live_end : (liveAt 22).phase = .idle ∧ (liveAt 22).freeCount = 7 ∧
    (liveAt 22).bus = [⟨0x123, 4, [0x05, 0x01, 0x10, 0x20]⟩] ∧ (liveAt 22).turns = [] ∧ (liveAt 22).ticks = 22 ∧
    (liveAt 22).gie = true ∧ (∀ q, (liveAt 22).armed q = false) ∧ (∀ q, (liveAt 22).pending q = false) := by
  refine ⟨?_, ?_, ?_, ?_, ?_, ?_, ?_, ?_⟩ <;> decide

theorem test_live_isRun : IsRun liveParams liveRun := by
  intro n
  by_cases h : n < 22
  · have := (List.all_eq_true.mp test_live_prefix) n (List.mem_range.mpr h)
    rw [liveRun, liveRun, if_pos (by omega), if_pos (by omega), liveAt]
    revert this
    cases stepWith liveParams (liveAt n) <;> simp [field]
  · obtain ⟨hp, -, -, ht, hk, -⟩ := test_live_end
    have e : ∀ m, 22 ≤ m → liveRun m = atTick (liveAt 22) m := by
      intro m hm
      rcases Nat.lt_or_ge 22 m with h | h
      · rw [liveRun, if_neg (by omega)]
      · obtain rfl : m = 22 := by omega
        have : atTick (liveAt 22) (liveAt 22).ticks = liveAt 22 := rfl
        rw [hk] at this
        rw [liveRun, if_pos (by omega), this]
    rw [e n (by omega), e (n + 1) (by omega)]
    exact atTick_idle_step hp ht (by
      simp [liveParams, show n ≠ 0 by omega, show n ≠ 20 by omega, show n ≠ 21 by omega])

theorem liveRun_after {n : Nat} (h : 22 ≤ n) : (liveRun n).phase = .idle ∧ (liveRun n).gie = true ∧
    (liveRun n).turns = [] ∧ (∀ q, (liveRun n).armed q = false) ∧ ∀ q, (liveRun n).pending q = false := by
  obtain ⟨hp, -, -, ht, -, hg, ha, hq⟩ := test_live_end
  rcases Nat.lt_or_ge 22 n with h' | h'
  · rw [liveRun, if_neg (by omega)]; exact ⟨hp, hg, ht, ha, hq⟩
  · obtain rfl : n = 22 := by omega
    exact ⟨hp, hg, ht, ha, hq⟩

theorem test_live_fair : Fair liveParams liveRun where
  ctrl := fun _ n q _ => ⟨max n 22, le_max_left .., (liveRun_after (le_max_right ..)).2.2.2.1 q⟩
  irq := fun _ n q _ _ _ => ⟨max n 22, le_max_left .., (liveRun_after (le_max_right ..)).2.2.2.2 q⟩
  fg := fun n => ⟨max n 22, le_max_left .., .inl (liveRun_after (le_max_right ..)).1⟩

theorem test_live_no_reset (n : Nat) : nextTurn liveParams (liveRun n) ≠ .reset := by
  have ht : (liveRun n).turns = [] := by
    rcases Nat.lt_or_ge n 22 with h | h
    · have : ∀ n : Fin 22, (liveAt n).turns = [] := by decide
      rw [liveRun, if_pos (by omega)]; exact this ⟨n, h⟩
    · exact (liveRun_after h).2.2.1
  unfold nextTurn
  rw [ht]
  simp only [liveParams]
  split
  · decide
  · split
    · decide
    · split <;> decide

/-- CounterEqualsIdleSlots, EveryFrameOnTheBusIsGood, SendReturnsUnderFairness: that run, with a SEND accepted in it, a
frame on its bus, and `gie` set when the SEND starts. -/
theorem test_witness_live : IsRun liveParams liveRun ∧ InitClean (liveRun 0) ∧ (liveRun 0).canie1.getLsbD 7 = false ∧
    (∀ n, nextTurn liveParams (liveRun n) ≠ .reset) ∧ liveParams.fairCtrl = true ∧ liveParams.fairIrq = true ∧
    Fair liveParams liveRun ∧ (liveRun 1).gie = true ∧ (liveRun 1).phase = .poll ∧ (liveRun 22).bus ≠ [] :=
  ⟨test_live_isRun, ⟨by decide, by decide, rfl, rfl, rfl, rfl, rfl,
    ⟨rfl, clean_ready.running, clean_ready.interrupts, clean_ready.transmit⟩⟩, rfl, test_live_no_reset, rfl, rfl,
    test_live_fair, by decide, by decide, by
      show (liveAt 22).bus ≠ []
      rw [test_live_end.2.2.1]; decide⟩

/-- What OwnershipInvariant speaks of happens: in that run, a slot is claimed. -/
theorem test_witness_claimed : (liveRun 8).claimed = some 8 ∧ (liveRun 8).slotState 8 = .claimed := by decide

end Sys2Proof.Tests
end

section
/-! PROOFS. A step always answers a next state (60_exceptions R210, R214), and what FG's turn does (00_scope R10, R13).
The step is taken apart by the turn that is next, the turn by its agent, the agent's word by its command. -/

namespace Sys2Proof.Machine

/-! ## The turn that is next -/

/-- A step runs the turn that is next, on the state with that turn taken. -/
theorem step_of_nextTurn {s : State} {t : Turn} (h : nextTurn Config.params s = t) :
    step s = takeTurn Config.params t s.pop := by
  subst h
  rfl

/-! ## FG's turn -/

theorem fgTurn_idle {p : Params} {s : State} (h : s.phase = .idle) : fgTurn p s = .next s :=
  if_pos h

theorem fgTurn_busy {p : Params} {s : State} (h : s.phase ≠ .idle) : fgTurn p s = .next (fgMicro p s.count) :=
  if_neg h

/-! ## Every turn has a next state -/

/-- Every command has a meaning, and none stops: the port's hold and a refusal are next states too. -/
theorem exec_next (i : Instr) (s : State) : ∃ t, exec i s = .next t := by
  cases i with
  | send ty len => exact ⟨_, rfl⟩
  | stage idx byte => exact ⟨_, rfl⟩
  | setseq byte => exact ⟨_, rfl⟩
  | setdcnt byte => exact ⟨_, rfl⟩
  | reclaim slot => exact ⟨_, rfl⟩

/-- R131: a word on a port is a command, or its ERR_ILLEGAL is recorded and not trapped. -/
theorem portWord_next (port : Port) (w : Word) (s : State) : ∃ t, portWord port w s = .next t := by
  unfold portWord
  split
  · exact exec_next _ s
  · exact ⟨_, rfl⟩

theorem hostTurn_next (op : HostOp) (s : State) : ∃ t, hostTurn op s = .next t := by
  unfold hostTurn
  split
  · cases s.held.getD op with
    | issue w => exact portWord_next .fg w _
    | setGie b => exact ⟨_, rfl⟩
  · exact ⟨_, rfl⟩

theorem fgTurn_next (p : Params) (s : State) : ∃ t, fgTurn p s = .next t := by
  by_cases h : s.phase = .idle
  · exact ⟨_, fgTurn_idle h⟩
  · exact ⟨_, fgTurn_busy h⟩

theorem irqTurn_next (q : Slot) (s : State) : ∃ t, irqTurn q s = .next t := by
  unfold irqTurn
  split
  · exact portWord_next .irq _ _
  · exact ⟨_, rfl⟩

theorem ctrlTurn_next (q : Slot) (s : State) : ∃ t, ctrlTurn q s = .next t := by
  unfold ctrlTurn
  split <;> exact ⟨_, rfl⟩

theorem initTurn_next (p : Params) (s : State) : ∃ t, initTurn p s = .next t := by
  unfold initTurn
  split <;> exact ⟨_, rfl⟩

/-- No agent's turn, and nothing the outside does, answers a fault or a refusal. -/
theorem takeTurn_next (p : Params) (t : Turn) (s : State) : ∃ s', takeTurn p t s = .next s' := by
  cases t with
  | host op => exact hostTurn_next op s
  | fg => exact fgTurn_next p s
  | irq q => exact irqTurn_next q s
  | irqPort w => exact portWord_next .irq w s.count
  | ctrl q => exact ctrlTurn_next q s
  | init => exact initTurn_next p s
  | reset => exact ⟨_, rfl⟩

/-! ## The obligations -/

/-- Settles O21: every turn has a next state, and a step is the next turn. -/
theorem everyStepHasANextState : Obligations.EveryStepHasANextState := fun s =>
  takeTurn_next Config.params (nextTurn Config.params s) s.pop

/-- Settles O26: the step is FG's turn on the popped state, which stands in the same phase. -/
theorem fgTurnRunsOneMicroStep : Obligations.FgTurnRunsOneMicroStep := by
  intro s hturn
  have hstep : step s = fgTurn Config.params s.pop := step_of_nextTurn hturn
  constructor
  · intro hidle
    rw [hstep, fgTurn_idle ((pop_phase s).trans hidle)]
  · intro hbusy
    have hpop : s.pop.phase ≠ .idle := by rwa [pop_phase]
    rw [hstep, fgTurn_busy hpop, State.begun]

end Sys2Proof.Machine
end

section
/-! PROOFS. What a micro-step of FG can do in a state of the sequencer's invariant (41_send_sequencer R151-R170), said once:
CANPAGE selects `s`, so every paged access reaches the slot register's mailbox, and the cursor is the index of the frame
byte that is written. The invariants' proofs take a micro-step apart with `fgMicro_step`. -/

namespace Sys2Proof.Machine

/-! ## Groups of phases -/

theorem Phase.statusCleared_of_owned {ph : Phase} (h : ph.owned = true) : ph.statusCleared = true := by
  cases ph <;> simp_all [Phase.owned, Phase.statusCleared]

theorem Phase.found_of_statusCleared {ph : Phase} (h : ph.statusCleared = true) : ph.found = true := by
  cases ph <;> simp_all [Phase.statusCleared, Phase.found]

theorem Phase.found_of_owned {ph : Phase} (h : ph.owned = true) : ph.found = true :=
  found_of_statusCleared (statusCleared_of_owned h)

theorem Phase.paged_of_found {ph : Phase} (h : ph.found = true) : ph.paged = true := by
  cases ph <;> simp_all [Phase.found, Phase.paged]

theorem Phase.scanning_of_found {ph : Phase} (h : ph.found = true) : ph.scanning = false := by
  cases ph <;> simp_all [Phase.found, Phase.scanning]

theorem Phase.beforeClaim_of_owned {ph : Phase} (h : ph.owned = true) : ph.beforeClaim = false := by
  cases ph <;> simp_all [Phase.owned, Phase.beforeClaim]

/-- R23: `s` is in the pool wherever CANPAGE selects it. -/
theorem SeqInv.inPool_of_paged {s : State} (h : SeqInv s) (hp : s.phase.paged = true) : inPool s.slot = true := by
  refine h.slotInPool ?_ ?_ <;> intro e <;> simp [e, Phase.paged] at hp

/-- R23: the slot FG has found is in the pool. -/
theorem SeqInv.inPool_of_found {s : State} (h : SeqInv s) (hp : s.phase.found = true) : inPool s.slot = true :=
  h.inPool_of_paged (Phase.paged_of_found hp)

/-! ## The writes of the frame builder -/

/-- WRID1 to WRID4 (R161-R164): the phase, what it writes to the mailbox, and the next phase. -/
inductive IdtWrite (p : Params) : Phase → (Mailbox → Mailbox) → Phase → Prop where
  | first : IdtWrite p .wrid1 (fun x => { x with idt1 := idt1Value p.bootCanId }) .wrid2
  | second : IdtWrite p .wrid2 (fun x => { x with idt2 := idt2Value p.bootCanId }) .wrid3
  | third : IdtWrite p .wrid3 (fun x => { x with idt3 := 0x00#8 }) .wrid4
  | fourth : IdtWrite p .wrid4 (fun x => { x with idt4 := 0x00#8 }) (.wrhdr 0)

/-- WRHDR(k) and WRPAY(k) (R165, R166): the phase, the index of the frame byte it writes, and the next phase. -/
inductive DataWrite (len : BitVec 3) : Phase → Fin 8 → Phase → Prop where
  | hdr (k : Fin 4) : DataWrite len (.wrhdr k) ⟨k.val, by omega⟩ (afterHdr len k)
  | pay (k : Fin 4) (hk : k.val < len.toNat) : DataWrite len (.wrpay k) ⟨4 + k.val, by omega⟩ (afterPay len k)

/-! ## The micro-steps -/

/-- What one micro-step can do to a state that meets `SeqInv`. -/
inductive MicroStep (p : Params) (s : State) : State → Prop where
  /-- POLL spins (R151). -/
  | spin (hp : s.phase = .poll) (hz : s.freeCount = 0#8) : MicroStep p s s
  /-- POLL starts the scan (R151). -/
  | start (hp : s.phase = .poll) (hz : s.freeCount ≠ 0#8) : MicroStep p s { s with slot := 8#4, phase := .scanPage }
  /-- SCAN_PAGE (R152). -/
  | scanPage (hp : s.phase = .scanPage) : MicroStep p s { s with canpage := pageValue s.slot, phase := .scanTest }
  /-- SCAN_TEST finds a free slot (R153). -/
  | found (hp : s.phase = .scanTest) (hc : conmob (s.mob s.slot).cdmob = 0b00#2) : MicroStep p s (s.goto .clrRead)
  /-- SCAN_TEST goes on to the next slot (R153). -/
  | skip (hp : s.phase = .scanTest) (hc : conmob (s.mob s.slot).cdmob ≠ 0b00#2) (hs : s.slot.toNat < 14) :
      MicroStep p s { s with slot := s.slot + 1#4, phase := .scanPage }
  /-- SCAN_TEST finds no slot (R154). -/
  | exhausted (hp : s.phase = .scanTest) (hc : conmob (s.mob s.slot).cdmob ≠ 0b00#2) (hs : s.slot.toNat = 14) :
      MicroStep p s ((s.raiseFg .errNoslot).goto .idle)
  /-- CLR_READ (R157). -/
  | clrRead (hp : s.phase = .clrRead) : MicroStep p s (s.goto .clrWrite)
  /-- CLR_WRITE (R158). -/
  | clrWrite (hp : s.phase = .clrWrite) :
      MicroStep p s ((s.updMob s.slot (fun x => { x with stmob := 0x00#8 })).goto .claim)
  /-- CLAIM (R159). -/
  | claim (hp : s.phase = .claim) :
      MicroStep p s { s with freeCount := s.freeCount - 1#8, claimed := some s.slot, phase := .page }
  /-- PAGE (R160). -/
  | page (hp : s.phase = .page) : MicroStep p s { s with canpage := pageValue s.slot, phase := .wrid1 }
  /-- WRID1 to WRID4. -/
  | idt (f : Mailbox → Mailbox) (n : Phase) (hw : IdtWrite p s.phase f n) : MicroStep p s ((s.updMob s.slot f).goto n)
  /-- WRHDR and WRPAY: the next byte of the frame, and the cursor moves on. -/
  | data (j : Fin 8) (n : Phase) (hw : DataWrite s.len s.phase j n) :
      MicroStep p s
        ((s.updMob s.slot (fun x => setMsg x (indx s.canpage) (frameByte p s j))).afterMsg.goto n)
  /-- ENIE_READ (R167). -/
  | enieRead (hp : s.phase = .enieRead) : MicroStep p s { s with tmp := s.canie1, phase := .enieWrite }
  /-- ENIE_WRITE (R168). -/
  | enieWrite (hp : s.phase = .enieWrite) (ht : s.tmp = s.canie1) :
      MicroStep p s { s with canie1 := (s.tmp ||| ieMask s.slot) &&& 0x7F#8, phase := .arm }
  /-- ARM (R169). -/
  | arm (hp : s.phase = .arm) :
      MicroStep p s ((s.updMob s.slot (fun x => { x with cdmob := armValue s.len })).disown.goto .done)
  /-- DONE (R170). -/
  | done (hp : s.phase = .done) : MicroStep p s (s.goto .idle)

/-- R74 never applies: CANPAGE selects a pool mailbox wherever a paged register is accessed (R157, R160). -/
theorem SeqInv.page_ne_absent {s : State} (h : SeqInv s) (hp : s.phase.paged = true) : mobnb s.canpage ≠ 15#4 := by
  rw [h.pageSelects hp]
  exact inPool_ne_absent (h.inPool_of_paged hp)

theorem fgScanTest_step {p : Params} {s : State} (h : SeqInv s) (hp : s.phase = .scanTest) :
    MicroStep p s (fgScanTest s) := by
  have hpaged : s.phase.paged = true := by simp [hp, Phase.paged]
  have hpage := h.page_ne_absent hpaged
  have hslot := inPool_iff.mp (h.inPool_of_paged hpaged)
  by_cases hc : conmob (s.mob (mobnb s.canpage)).cdmob = 0b00#2
  · rw [fgScanTest_found hpage hc]
    exact .found hp (h.pageSelects hpaged ▸ hc)
  · by_cases hs : s.slot.toNat < 14
    · rw [fgScanTest_next hpage hc hs]
      exact .skip hp (h.pageSelects hpaged ▸ hc) hs
    · rw [fgScanTest_exhausted hpage hc (by omega)]
      exact .exhausted hp (h.pageSelects hpaged ▸ hc) (by omega)

theorem frameByte_hdr {p : Params} {s : State} (k : Fin 4) :
    frameByte p s ⟨k.val, by omega⟩ = hdrByte p s k :=
  dif_pos k.isLt

theorem frameByte_pay {p : Params} {s : State} (k : Fin 4) :
    frameByte p s ⟨4 + k.val, by omega⟩ = (s.pay[k]).val := by
  simp [frameByte]

/-- The micro-step of a busy FG, in a state that meets the sequencer's invariant. -/
theorem fgMicro_step {p : Params} {s : State} (h : SeqInv s) (hb : s.phase ≠ .idle) : MicroStep p s (fgMicro p s) := by
  have hpage : s.phase.paged = true → mobnb s.canpage ≠ 15#4 := h.page_ne_absent
  have hsel := h.pageSelects
  cases hp : s.phase with simp only [fgMicro, hp] at hpage hsel ⊢
  | idle => exact absurd hp hb
  | poll =>
    by_cases hz : s.freeCount = 0#8
    · rw [fgPoll_zero hz]; exact .spin hp hz
    · rw [fgPoll_pos hz]; exact .start hp hz
  | scanPage => exact .scanPage hp
  | scanTest => exact fgScanTest_step h hp
  | clrRead => rw [fgClrRead_eq (hpage rfl)]; exact .clrRead hp
  | clrWrite => rw [fgClrWrite_eq (hpage rfl), hsel rfl]; exact .clrWrite hp
  | claim => rw [fgClaim_pos (h.counterPos (by rw [hp]; rfl))]; exact .claim hp
  | page => exact .page hp
  | wrid1 => rw [fgWrid1_eq (hpage rfl), hsel rfl]; exact .idt _ _ (hp ▸ .first)
  | wrid2 => rw [fgWrid2_eq (hpage rfl), hsel rfl]; exact .idt _ _ (hp ▸ .second)
  | wrid3 => rw [fgWrid3_eq (hpage rfl), hsel rfl]; exact .idt _ _ (hp ▸ .third)
  | wrid4 => rw [fgWrid4_eq (hpage rfl), hsel rfl]; exact .idt _ _ (hp ▸ .fourth)
  | wrhdr k =>
    rw [fgWrhdr_eq (hpage rfl), hsel rfl, ← frameByte_hdr]
    exact .data _ _ (hp ▸ .hdr k)
  | wrpay k =>
    rw [fgWrpay_eq (hpage rfl), hsel rfl, ← frameByte_pay]
    exact .data _ _ (hp ▸ .pay k (h.payLt k hp))
  | enieRead => rw [fgEnieRead_eq, and_eq_of_reserved h.ieReserved]; exact .enieRead hp
  | enieWrite => exact .enieWrite hp (h.tmpCopy hp)
  | arm => rw [fgArm_eq (hpage rfl), hsel rfl]; exact .arm hp
  | done => exact .done hp

end Sys2Proof.Machine
end

section
/-! PROOFS. The sequencer's invariant is kept by every turn (10_state R21, R23-R25, R41, R47), one lemma an effect. -/

namespace Sys2Proof.Machine

/-! ## What the invariant does not read -/

/-- `s` with the fields that no invariant of the block reads at other values: the fault record, the waiting operation, the
step count and the schedule. -/
abbrev State.rebooked (s : State) (f : Option FaultRecord) (o : Option HostOp) (n : Nat) (ts : List Turn) (k : Nat) :
    State :=
  { s with fault := f, held := o, steps := n, turns := ts, ticks := k }

theorem raise_eq_rebooked (s : State) (c : Fault) (port : Port) (w : Word) :
    s.raise c port w = s.rebooked (s.raise c port w).fault s.held s.steps s.turns s.ticks :=
  raise_eq s c port w

theorem SeqInv.rebooked {s : State} (h : SeqInv s) (f : Option FaultRecord) (o : Option HostOp) (n : Nat)
    (ts : List Turn) (k : Nat) : SeqInv (s.rebooked f o n ts k) :=
  ⟨h.counterLe, h.ieReserved, h.slotInPool, h.lenLe, h.payLt, h.pageSelects, h.cursor, h.counterPos, h.foundFree,
    h.foundClear, h.owner, h.tmpCopy⟩

/-! ## The invariant before and after a SEND -/

theorem SeqInv.of_idle {s : State} (hp : s.phase = .idle) (hf : s.freeCount.toNat ≤ 7)
    (hi : s.canie1.getLsbD 7 = false) (hc : s.claimed = none) : SeqInv s := by
  refine ⟨hf, hi, ?_, ?_, ?_, ?_, ?_, ?_, ?_, ?_, ?_, ?_⟩ <;>
    simp [hp, hc, Phase.paged, Phase.cursorSet, Phase.beforeClaim, Phase.found, Phase.statusCleared, Phase.owned]

/-- Nothing is claimed outside PAGE to ARM (R24). -/
theorem SeqInv.claimed_none {s : State} (h : SeqInv s) (hp : s.phase.owned = false) : s.claimed = none := by
  simpa [hp] using h.owner

/-- From PAGE to ARM the slot register is claimed (R24). -/
theorem SeqInv.claimed_some {s : State} (h : SeqInv s) (hp : s.phase.owned = true) : s.claimed = some s.slot := by
  simpa [hp] using h.owner

/-- R47: the slot in `claimed` is the one FG has found, disabled until ARM, and FG is between PAGE and ARM. -/
theorem SeqInv.of_claimed {s : State} (h : SeqInv s) {q : Slot} (hc : s.claimed = some q) :
    conmob (s.mob q).cdmob = 0b00#2 ∧ s.slot = q ∧ inPool q = true ∧ s.phase.owned = true := by
  have howned : s.phase.owned = true := by
    by_contra hn
    simp [h.claimed_none (by simpa using hn)] at hc
  obtain rfl : s.slot = q := by simpa [h.claimed_some howned] using hc
  have hfound := Phase.found_of_owned howned
  exact ⟨h.foundFree hfound, rfl, h.inPool_of_found hfound, howned⟩

theorem SeqInv.claimed_none_of_idle {s : State} (h : SeqInv s) (hp : s.phase = .idle) : s.claimed = none :=
  h.claimed_none (by simp [hp, Phase.owned])

/-- R250, R251: the fixed reset values meet the invariant. -/
theorem IsReset.seqInv {s : State} (h : IsReset s) : SeqInv s :=
  .of_idle h.phase (by simp [h.counter]) (by simp [h.canie1]) h.claimed

/-- R135: an accepted SEND goes to POLL with LEN at most 4. -/
theorem SeqInv.send {s : State} (h : SeqInv s) (hp : s.phase = .idle) (ty : Byte) {len : BitVec 3}
    (hl : len.toNat ≤ 4) : SeqInv { s with ty := ty, len := len, phase := .poll } where
  counterLe := h.counterLe
  ieReserved := h.ieReserved
  slotInPool := fun _ hn => absurd rfl hn
  lenLe := fun _ => hl
  payLt := nofun
  pageSelects := nofun
  cursor := nofun
  counterPos := nofun
  foundFree := nofun
  foundClear := nofun
  owner := h.claimed_none_of_idle hp
  tmpCopy := nofun

/-! ## The other agents -/

/-- A write to a slot in use leaves the mailbox FG has found alone, whatever else it changes outside the SEND. -/
theorem SeqInv.otherMailbox {s : State} (h : SeqInv s) {q : Slot} (hq : conmob (s.mob q).cdmob ≠ 0b00#2)
    (x : Mailbox) {n : Byte} (l : List Frame) (hle : n.toNat ≤ 7) (hpos : s.freeCount ≠ 0#8 → n ≠ 0#8) :
    SeqInv { s with mobs := mobSet s.mobs q x, freeCount := n, bus := l } := by
  have hne : s.phase.found = true → s.slot ≠ q := by
    rintro hp rfl
    exact hq (h.foundFree hp)
  have hmob : s.phase.found = true → mobAt (mobSet s.mobs q x) s.slot = s.mob s.slot := fun hp =>
    mobAt_mobSet_ne x (hne hp)
  exact
    { counterLe := hle
      ieReserved := h.ieReserved
      slotInPool := h.slotInPool
      lenLe := h.lenLe
      payLt := h.payLt
      pageSelects := h.pageSelects
      cursor := h.cursor
      counterPos := fun hp => hpos (h.counterPos hp)
      foundFree := fun hp => by simpa [hmob hp] using h.foundFree hp
      foundClear := fun hp => by simpa [hmob (Phase.found_of_statusCleared hp)] using h.foundClear hp
      owner := h.owner
      tmpCopy := h.tmpCopy }

/-- R190, R191: an accepted RECLAIM is of an armed slot, and the counter is not 7. -/
theorem SeqInv.release {s : State} (h : SeqInv s) {q : Slot} (hc : s.reclaimCheck q = none) :
    SeqInv (s.release q) := by
  obtain ⟨-, hused, -, hcount⟩ := reclaimCheck_eq_none.mp hc
  have hle := h.counterLe
  refine h.otherMailbox (by simp [hused]) _ s.bus ?_ ?_ <;> bv_omega

/-- A slot CTRL transmits is an armed pool slot (R195). -/
theorem txEnabled_spec {s : State} {q : Slot} (h : s.txEnabled q = true) :
    inPool q = true ∧ conmob (s.mob q).cdmob = 0b01#2 := by
  simp only [State.txEnabled, State.armed, Bool.and_eq_true, beq_iff_eq] at h
  tauto

theorem SeqInv.transmit {s : State} (h : SeqInv s) {q : Slot} (he : s.txEnabled q = true) : SeqInv (s.transmit q) :=
  h.otherMailbox (by simp [(txEnabled_spec he).2]) _ _ h.counterLe id

/-! ## The micro-steps -/

/-- A micro-step from POLL or the scan to CLAIM's predecessors (R151-R158): the counter, LEN and the mark stay. -/
theorem SeqInv.beforeClaim_step {s t : State} (h : SeqInv s) (hb : s.phase ≠ .idle) (hs : s.phase.owned = false)
    (ht : t.phase.beforeClaim = true) (hpos : s.freeCount ≠ 0#8) (hf : t.freeCount = s.freeCount)
    (hlen : t.len = s.len) (hcl : t.claimed = s.claimed) (hie : t.canie1 = s.canie1) (hpool : inPool t.slot = true)
    (hpage : t.phase.paged = true → mobnb t.canpage = t.slot)
    (hfree : t.phase.found = true → conmob (t.mob t.slot).cdmob = 0b00#2)
    (hclear : t.phase.statusCleared = true → txok (t.mob t.slot).stmob = false) : SeqInv t := by
  have hph : t.phase.owned = false ∧ t.phase.cursorSet = false ∧ t.phase ≠ .enieWrite ∧ ∀ k, t.phase ≠ .wrpay k := by
    revert ht; cases t.phase <;> simp [Phase.beforeClaim, Phase.owned, Phase.cursorSet]
  obtain ⟨howned, hcursor, henie, hpay⟩ := hph
  exact
    { counterLe := hf ▸ h.counterLe
      ieReserved := hie ▸ h.ieReserved
      slotInPool := fun _ _ => hpool
      lenLe := fun _ => hlen ▸ h.lenLe hb
      payLt := fun k hk => absurd hk (hpay k)
      pageSelects := hpage
      cursor := fun hc => absurd hc (by simp [hcursor])
      counterPos := fun _ => hf ▸ hpos
      foundFree := hfree
      foundClear := hclear
      owner := by simp [howned, hcl, h.claimed_none hs]
      tmpCopy := fun he => absurd he henie }

/-- A micro-step between PAGE and ARM (R160-R168): the counter, `s`, LEN, the mark and the slot's control and status
registers stay. -/
theorem SeqInv.owned_step {s t : State} (h : SeqInv s) (hs : s.phase.owned = true) (ht : t.phase.owned = true)
    (hf : t.freeCount = s.freeCount) (hslot : t.slot = s.slot) (hlen : t.len = s.len) (hcl : t.claimed = s.claimed)
    (hcd : (t.mob s.slot).cdmob = (s.mob s.slot).cdmob) (hst : (t.mob s.slot).stmob = (s.mob s.slot).stmob)
    (hie : t.canie1.getLsbD 7 = false) (hpay : ∀ k, t.phase = .wrpay k → k.val < s.len.toNat)
    (hpage : mobnb t.canpage = s.slot)
    (hcur : t.phase.cursorSet = true →
      ainc t.canpage = false ∧ (indx t.canpage).toNat = t.phase.msgWritten s.len % 8)
    (htmp : t.phase = .enieWrite → t.tmp = t.canie1) : SeqInv t := by
  have hfound := Phase.found_of_owned hs
  have hbusy : s.phase ≠ .idle := by intro e; simp [e, Phase.owned] at hs
  exact
    { counterLe := hf ▸ h.counterLe
      ieReserved := hie
      slotInPool := fun _ _ => hslot ▸ h.inPool_of_found hfound
      lenLe := fun _ => hlen ▸ h.lenLe hbusy
      payLt := fun k hk => hlen ▸ hpay k hk
      pageSelects := fun _ => hslot ▸ hpage
      cursor := fun hc => hlen ▸ hcur hc
      counterPos := fun hc => absurd hc (by simp [Phase.beforeClaim_of_owned ht])
      foundFree := fun _ => by rw [hslot, hcd]; exact h.foundFree hfound
      foundClear := fun _ => by rw [hslot, hst]; exact h.foundClear (Phase.statusCleared_of_owned hs)
      owner := by simp [ht, hcl, hslot, h.claimed_some hs]
      tmpCopy := htmp }

/-- WRID1 to WRID4 lie between PAGE and ARM, at the start of the data, and write no control or status register. -/
theorem IdtWrite.spec {p : Params} {ph n : Phase} {f : Mailbox → Mailbox} (hw : IdtWrite p ph f n) :
    (ph.owned = true ∧ ph.cursorSet = true ∧ ∀ len, ph.msgWritten len = 0) ∧
    (n.owned = true ∧ n ≠ .enieWrite ∧ (∀ k, n ≠ .wrpay k) ∧ ∀ len, n.msgWritten len = 0) ∧
    ∀ x, (f x).cdmob = x.cdmob ∧ (f x).stmob = x.stmob := by
  cases hw <;> simp [Phase.owned, Phase.cursorSet, Phase.msgWritten]

/-- WRHDR(k) and WRPAY(k) lie between PAGE and ARM; the byte written is the next one (R165, R166). -/
theorem DataWrite.spec {len : BitVec 3} {ph n : Phase} {j : Fin 8} (hl : len.toNat ≤ 4) (hw : DataWrite len ph j n) :
    (ph.owned = true ∧ ph.cursorSet = true ∧ ph.msgWritten len = j.val) ∧
    (n.owned = true ∧ n ≠ .enieWrite ∧ (∀ k, n = .wrpay k → k.val < len.toNat) ∧ n.msgWritten len = j.val + 1) := by
  cases hw with
  | hdr k =>
    refine ⟨⟨rfl, rfl, rfl⟩, ?_⟩
    by_cases hk : k.val < 3
    · simp [afterHdr_lt hk, Phase.owned, Phase.msgWritten]
    · have hk : k.val = 3 := by omega
      by_cases hz : len = 0#3
      · subst hz
        simp [afterHdr_last_empty hk, Phase.owned, Phase.msgWritten, hk]
      · have hpos : 0 < len.toNat := by bv_omega
        simp [afterHdr_last hk hz, Phase.owned, Phase.msgWritten, hk, hpos]
  | pay k hk =>
    refine ⟨⟨rfl, rfl, rfl⟩, ?_⟩
    by_cases hn : k.val + 1 < len.toNat
    · simp [afterPay_next hn (by omega), Phase.owned, Phase.msgWritten, hn, Nat.add_assoc]
    · have hlast : len.toNat = k.val + 1 := by omega
      simp [afterPay_last hlast.le, Phase.owned, Phase.msgWritten, hlast, Nat.add_assoc]

/-- A micro-step is a busy FG's. -/
theorem MicroStep.busy {p : Params} {s t : State} (hm : MicroStep p s t) : s.phase ≠ .idle := by
  intro hi
  cases hm with
  | idt f n hw => rw [hi] at hw; cases hw
  | data j n hw => rw [hi] at hw; cases hw
  | _ => simp_all

/-- R75: after a data byte the cursor stands at the next one, modulo 8. -/
theorem indx_pageAfterMsg_toNat {b : Byte} {j : Nat} (ha : ainc b = false) (hi : (indx b).toNat = j % 8) :
    (indx (pageAfterMsg b)).toNat = (j + 1) % 8 := by
  rw [indx_pageAfterMsg ha, BitVec.toNat_add, hi]
  simp

/-- Every micro-step keeps the invariant (R151-R170). -/
theorem SeqInv.microStep {p : Params} {s t : State} (h : SeqInv s) (hm : MicroStep p s t) : SeqInv t := by
  have hbusy := hm.busy
  have hself (hp : s.phase.found = true) (x : Mailbox) : mobAt (mobSet s.mobs s.slot x) s.slot = x :=
    mobAt_mobSet_self x (inPool_ne_absent (h.inPool_of_found hp))
  cases hm with
  | spin => exact h
  | start hp hz =>
    exact h.beforeClaim_step hbusy (by rw [hp]; rfl) rfl hz rfl rfl rfl rfl rfl nofun nofun nofun
  | scanPage hp =>
    exact h.beforeClaim_step hbusy (by rw [hp]; rfl) rfl (h.counterPos (by rw [hp]; rfl)) rfl rfl rfl rfl
      (h.slotInPool hbusy (by simp [hp])) (fun _ => mobnb_pageValue _) nofun nofun
  | found hp hc =>
    exact h.beforeClaim_step hbusy (by rw [hp]; rfl) rfl (h.counterPos (by rw [hp]; rfl)) rfl rfl rfl rfl
      (h.inPool_of_paged (by rw [hp]; rfl)) (fun _ => h.pageSelects (by rw [hp]; rfl)) (fun _ => hc) nofun
  | skip hp hc hs =>
    have hin := inPool_iff.mp (h.inPool_of_paged (by rw [hp]; rfl))
    have hnext : inPool (s.slot + 1#4) = true := inPool_iff.mpr (by bv_omega)
    exact h.beforeClaim_step hbusy (by rw [hp]; rfl) rfl (h.counterPos (by rw [hp]; rfl)) rfl rfl rfl rfl
      hnext nofun nofun nofun
  | exhausted hp hc hs =>
    exact .of_idle rfl (by simpa using h.counterLe) (by simpa using h.ieReserved)
      (by simpa using h.claimed_none (by rw [hp]; rfl))
  | clrRead hp =>
    exact h.beforeClaim_step hbusy (by rw [hp]; rfl) rfl (h.counterPos (by rw [hp]; rfl)) rfl rfl rfl rfl
      (h.inPool_of_paged (by rw [hp]; rfl)) (fun _ => h.pageSelects (by rw [hp]; rfl))
      (fun _ => h.foundFree (by rw [hp]; rfl)) nofun
  | clrWrite hp =>
    refine h.beforeClaim_step hbusy (by rw [hp]; rfl) rfl (h.counterPos (by rw [hp]; rfl)) rfl rfl rfl rfl
      (h.inPool_of_paged (by rw [hp]; rfl)) (fun _ => h.pageSelects (by rw [hp]; rfl)) (fun _ => ?_) (fun _ => ?_)
    · simpa [hself (by rw [hp]; rfl)] using h.foundFree (by rw [hp]; rfl)
    · simp [hself (by rw [hp]; rfl)]
  | claim hp =>
    have hpos := h.counterPos (by rw [hp]; rfl)
    have hle := h.counterLe
    exact
      { counterLe := by show (s.freeCount - 1#8).toNat ≤ 7; bv_omega
        ieReserved := h.ieReserved
        slotInPool := fun _ _ => h.inPool_of_paged (by rw [hp]; rfl)
        lenLe := fun _ => h.lenLe hbusy
        payLt := nofun
        pageSelects := fun _ => h.pageSelects (by rw [hp]; rfl)
        cursor := nofun
        counterPos := nofun
        foundFree := fun _ => h.foundFree (by rw [hp]; rfl)
        foundClear := fun _ => h.foundClear (by rw [hp]; rfl)
        owner := rfl
        tmpCopy := nofun }
  | page hp =>
    exact h.owned_step (by rw [hp]; rfl) rfl rfl rfl rfl rfl rfl rfl h.ieReserved nofun (mobnb_pageValue _)
      (fun _ => ⟨ainc_pageValue _, by simp [Phase.msgWritten]⟩) nofun
  | idt f n hw =>
    obtain ⟨⟨hs, hsc, hsm⟩, ⟨hn, hne, hnp, hnm⟩, hf⟩ := hw.spec
    have hfound := Phase.found_of_owned hs
    have hsel := h.pageSelects (Phase.paged_of_found hfound)
    refine h.owned_step hs hn rfl rfl rfl rfl ?_ ?_ h.ieReserved (fun k hk => absurd hk (hnp k)) hsel
      (fun _ => ?_) (fun e => absurd e hne)
    · simp [hself hfound, hf]
    · simp [hself hfound, hf]
    · simpa [hsm, hnm] using h.cursor hsc
  | data j n hw =>
    obtain ⟨⟨hs, hsc, hsm⟩, hn, hne, hnp, hnm⟩ := hw.spec (h.lenLe hbusy)
    have hfound := Phase.found_of_owned hs
    have hsel := h.pageSelects (Phase.paged_of_found hfound)
    obtain ⟨hainc, hindx⟩ := h.cursor hsc
    refine h.owned_step hs hn rfl rfl rfl rfl ?_ ?_ h.ieReserved hnp ?_ (fun _ => ⟨?_, ?_⟩) (fun e => absurd e hne)
    · simp [hself hfound, setMsg]
    · simp [hself hfound, setMsg]
    · simpa using hsel
    · simpa using hainc
    · simpa [hnm, hsm] using indx_pageAfterMsg_toNat hainc hindx
  | enieRead hp =>
    exact h.owned_step (by rw [hp]; rfl) rfl rfl rfl rfl rfl rfl rfl h.ieReserved nofun
      (h.pageSelects (by rw [hp]; rfl))
      (fun _ => by simpa [hp, Phase.msgWritten] using h.cursor (by rw [hp]; rfl)) (fun _ => rfl)
  | enieWrite hp ht =>
    exact h.owned_step (by rw [hp]; rfl) rfl rfl rfl rfl rfl rfl rfl (reserved_and _) nofun
      (h.pageSelects (by rw [hp]; rfl))
      (fun _ => by simpa [hp, Phase.msgWritten] using h.cursor (by rw [hp]; rfl)) nofun
  | arm hp =>
    exact
      { counterLe := h.counterLe
        ieReserved := h.ieReserved
        slotInPool := fun _ _ => h.inPool_of_paged (by rw [hp]; rfl)
        lenLe := fun _ => h.lenLe hbusy
        payLt := nofun
        pageSelects := fun _ => h.pageSelects (by rw [hp]; rfl)
        cursor := fun _ => by simpa [hp, Phase.msgWritten] using h.cursor (by rw [hp]; rfl)
        counterPos := nofun
        foundFree := nofun
        foundClear := nofun
        owner := rfl
        tmpCopy := nofun }
  | done hp => exact .of_idle rfl h.counterLe h.ieReserved (h.claimed_none (by rw [hp]; rfl))

/-! ## Every turn -/

/-- Every effect of a turn keeps the invariant, reset and initialisation among them. -/
theorem SeqInv.effect {p : Params} {τ : Turn} {s t : State} (h : SeqInv s) (he : Effect p τ s t) : SeqInv t := by
  cases he with
  | hold => exact h
  | refused c port w => rw [raise_eq_rebooked]; exact h.rebooked ..
  | gie b hi => exact .of_idle hi h.counterLe h.ieReserved (h.claimed_none_of_idle hi)
  | stage idx byte hi => exact .of_idle hi h.counterLe h.ieReserved (h.claimed_none_of_idle hi)
  | setseq byte hi => exact .of_idle hi h.counterLe h.ieReserved (h.claimed_none_of_idle hi)
  | setdcnt byte hi => exact .of_idle hi h.counterLe h.ieReserved (h.claimed_none_of_idle hi)
  | send ty len hi hc => exact h.send hi ty (sendCheck_eq_none.mp hc).1
  | reclaim q _ hc => exact h.release hc
  | transmit q _ he => exact h.transmit he
  | micro _ hb => exact h.microStep (fgMicro_step h hb)
  | init d _ _ hi => exact .of_idle hi h.counterLe (reserved_and _) (h.claimed_none_of_idle hi)
  | reset d => exact .of_idle rfl (by simp) (by simp) rfl

theorem SeqInv.step {p : Params} {s t : State} (h : SeqInv s) (hs : stepWith p s = .next t) : SeqInv t := by
  obtain ⟨n, o, he⟩ := stepWith_effect hs
  exact SeqInv.effect (h.rebooked s.fault o n s.turns.tail (s.ticks + 1)) he

/-- The invariant holds throughout a run that starts with it, under every schedule. -/
theorem IsRun.seqInv {p : Params} {r : Nat → State} (hr : IsRun p r) (h0 : SeqInv (r 0)) (n : Nat) : SeqInv (r n) := by
  induction n with
  | zero => exact h0
  | succ n ih => exact ih.step (hr n)

end Sys2Proof.Machine
end

section
/-! PROOFS. The frame under construction stands under every turn (41_send_sequencer R171, R173). -/

namespace Sys2Proof.Machine

/-! ## What the invariant reads of a mailbox -/

/-- `y` is `x` but for the control and status registers: it holds the same identifier registers and data bytes. -/
def SameContent (x y : Mailbox) : Prop := y = { x with cdmob := y.cdmob, stmob := y.stmob }

/-- A write to one mailbox's control and status registers leaves every mailbox's content (R36, R37). -/
theorem sameContent_mobSet (v : Vector Mailbox Config.mobCount) {q : Slot} (hq : q ≠ 15#4) (c b : Byte) (r : Slot) :
    SameContent (mobAt v r) (mobAt (mobSet v q { mobAt v q with cdmob := c, stmob := b }) r) := by
  rw [mobAt_mobSet r _ hq]
  split
  · next e => subst e; rfl
  · rfl

/-! ## When nothing of the frame changes -/

variable {p : Params} {s t : State}

/-- Before the first identifier register is written there is nothing to hold. -/
theorem FrameInv.of_unwritten (hi : s.phase.idtWritten = 0) (hm : s.phase.msgWritten s.len = 0)
    (he : s.phase.ieWritten = false) : FrameInv p s := by
  constructor <;> simp [hi, hm, he]

theorem FrameInv.of_idle (hp : s.phase = .idle) : FrameInv p s :=
  .of_unwritten (by rw [hp]; rfl) (by rw [hp]; rfl) (by rw [hp]; rfl)

/-- What has been written stands while the content of `s`'s mailbox and the bytes to send do. -/
theorem FrameInv.transfer (h : FrameInv p s) (hi : t.phase.idtWritten ≤ s.phase.idtWritten)
    (hm : t.phase.msgWritten t.len ≤ s.phase.msgWritten s.len) (hb : ∀ j, frameByte p t j = frameByte p s j)
    (hx : SameContent (s.mob s.slot) (t.mob t.slot))
    (he : t.phase.ieWritten = true → ieBit t.canie1 t.slot = true) : FrameInv p t where
  idt1 := fun hw => by rw [hx]; exact h.idt1 (hw.trans hi)
  idt2 := fun hw => by rw [hx]; exact h.idt2 (hw.trans hi)
  idt3 := fun hw => by rw [hx]; exact h.idt3 (hw.trans hi)
  idt4 := fun hw => by rw [hx]; exact h.idt4 (hw.trans hi)
  msg := fun j hj => by rw [hx, hb]; exact h.msg j (hj.trans_le hm)
  ie := he

theorem FrameInv.rebooked (h : FrameInv p s) (f : Option FaultRecord) (o : Option HostOp) (n : Nat)
    (ts : List Turn) (k : Nat) : FrameInv p (s.rebooked f o n ts k) :=
  h.transfer le_rfl le_rfl (fun _ => rfl) rfl h.ie

/-- CTRL and the interrupt handler write control and status registers only (R190, R195). -/
theorem FrameInv.otherMailbox (h : FrameInv p s) {q : Slot} (hq : q ≠ 15#4) (c b n : Byte) (l : List Frame) :
    FrameInv p { s with mobs := mobSet s.mobs q { s.mob q with cdmob := c, stmob := b }, freeCount := n, bus := l } :=
  h.transfer le_rfl le_rfl (fun _ => rfl) (sameContent_mobSet s.mobs hq c b s.slot) h.ie

/-! ## The micro-steps -/

/-- While the identifier is written, only the identifier registers count: `x` is `s`'s mailbox. -/
theorem FrameInv.of_idt (hm : s.phase.msgWritten s.len = 0) (he : s.phase.ieWritten = false) {x : Mailbox}
    (hx : s.mob s.slot = x) (h1 : 1 ≤ s.phase.idtWritten → x.idt1 = idt1Value p.bootCanId)
    (h2 : 2 ≤ s.phase.idtWritten → x.idt2 = idt2Value p.bootCanId) (h3 : 3 ≤ s.phase.idtWritten → x.idt3 = 0x00#8)
    (h4 : 4 ≤ s.phase.idtWritten → x.idt4 = 0x00#8) : FrameInv p s := by
  subst hx
  exact ⟨h1, h2, h3, h4, by simp [hm], by simp [he]⟩

/-- WRID1 to WRID4 write their register and leave those before it (R161-R164). -/
theorem FrameInv.idtWrite (h : FrameInv p s) (hseq : SeqInv s) {f : Mailbox → Mailbox} {n : Phase}
    (hw : IdtWrite p s.phase f n) : FrameInv p ((s.updMob s.slot f).goto n) := by
  obtain ⟨⟨howned, -, -⟩, -, -⟩ := hw.spec
  have hx : ((s.updMob s.slot f).goto n).mob s.slot = f (s.mob s.slot) :=
    mobAt_mobSet_self _ (inPool_ne_absent (hseq.inPool_of_found (Phase.found_of_owned howned)))
  generalize hp : s.phase = ph at hw
  cases hw with
  | first => exact .of_idt rfl rfl hx (fun _ => rfl) nofun nofun nofun
  | second => exact .of_idt rfl rfl hx (fun _ => h.idt1 (by simp [hp, Phase.idtWritten])) (fun _ => rfl) nofun nofun
  | third =>
    exact .of_idt rfl rfl hx (fun _ => h.idt1 (by simp [hp, Phase.idtWritten]))
      (fun _ => h.idt2 (by simp [hp, Phase.idtWritten])) (fun _ => rfl) nofun
  | fourth =>
    exact .of_idt rfl rfl hx (fun _ => h.idt1 (by simp [hp, Phase.idtWritten]))
      (fun _ => h.idt2 (by simp [hp, Phase.idtWritten])) (fun _ => h.idt3 (by simp [hp, Phase.idtWritten]))
      (fun _ => rfl)

/-- A data byte read after a data byte was written. -/
theorem setMsg_msg (x : Mailbox) {i : BitVec 3} {j : Fin 8} (hi : i.toNat = j.val) (v : Byte) (k : Fin 8) :
    (setMsg x i v).msg[k] = if k = j then v else x.msg[k] := by
  simp only [setMsg, Fin.getElem_fin, Vector.getElem_set, hi, Fin.ext_iff, eq_comm]

/-- All four identifier registers are written before the first data byte, and no interrupt is enabled by the last. -/
theorem DataWrite.written {len : BitVec 3} {ph n : Phase} {j : Fin 8} (hw : DataWrite len ph j n) :
    ph.idtWritten = 4 ∧ n.ieWritten = false := by
  cases hw with
  | hdr k => exact ⟨rfl, by unfold afterHdr; split <;> [rfl; split <;> rfl]⟩
  | pay k hk => exact ⟨rfl, by unfold afterPay; split <;> rfl⟩

/-- WRHDR(k) and WRPAY(k) write the next byte of the frame and leave those before it (R165, R166). -/
theorem FrameInv.dataWrite (h : FrameInv p s) (hseq : SeqInv s) (hb : s.phase ≠ .idle) {j : Fin 8} {n : Phase}
    (hw : DataWrite s.len s.phase j n) :
    FrameInv p ((s.updMob s.slot (fun x => setMsg x (indx s.canpage) (frameByte p s j))).afterMsg.goto n) := by
  obtain ⟨⟨howned, hcur, hj⟩, -, -, -, hn⟩ := hw.spec (hseq.lenLe hb)
  obtain ⟨hidt, hie⟩ := hw.written
  have hindx : (indx s.canpage).toNat = j.val := by
    rw [(hseq.cursor hcur).2, hj, Nat.mod_eq_of_lt j.isLt]
  have hx (x : Mailbox) : mobAt (mobSet s.mobs s.slot x) s.slot = x :=
    mobAt_mobSet_self x (inPool_ne_absent (hseq.inPool_of_found (Phase.found_of_owned howned)))
  refine
    { idt1 := fun _ => ?_, idt2 := fun _ => ?_, idt3 := fun _ => ?_, idt4 := fun _ => ?_, msg := fun k hk => ?_
      ie := fun e => absurd e (by simp [hie]) }
  · simpa [hx, setMsg] using h.idt1 (by omega)
  · simpa [hx, setMsg] using h.idt2 (by omega)
  · simpa [hx, setMsg] using h.idt3 (by omega)
  · simpa [hx, setMsg] using h.idt4 (by omega)
  · have hk : k.val < j.val + 1 := hn ▸ hk
    have hbyte : frameByte p ((s.updMob s.slot (fun x => setMsg x (indx s.canpage) (frameByte p s j))).afterMsg.goto n) k
        = frameByte p s k := rfl
    rw [hbyte]
    simp only [mob_eq, goto_mobs, goto_slot, afterMsg_mobs, afterMsg_slot, updMob_mobs, updMob_slot, hx,
      setMsg_msg _ hindx]
    split
    · next e => rw [e]
    · next e => exact h.msg k (by rw [hj]; omega)

/-- Every micro-step keeps what has been written of the frame. -/
theorem FrameInv.microStep (h : FrameInv p s) (hseq : SeqInv s) (hm : MicroStep p s t) : FrameInv p t := by
  cases hm with
  | spin => exact h
  | start | scanPage | found | skip | exhausted | clrRead | clrWrite | claim | page | done =>
    exact .of_unwritten rfl rfl rfl
  | idt f n hw => exact h.idtWrite hseq hw
  | data j n hw => exact h.dataWrite hseq (MicroStep.data (p := p) j n hw).busy hw
  | enieRead hp =>
    exact h.transfer (by rw [hp]; rfl) (by rw [hp]; rfl) (fun _ => rfl) rfl nofun
  | enieWrite hp ht =>
    exact h.transfer (by rw [hp]; rfl) (by rw [hp]; rfl) (fun _ => rfl) rfl
      (fun _ => ieBit_or_self (hseq.inPool_of_paged (by rw [hp]; rfl)))
  | arm hp =>
    have habsent := inPool_ne_absent (hseq.inPool_of_paged (by rw [hp]; rfl))
    have hx := sameContent_mobSet s.mobs habsent (armValue s.len) (s.mob s.slot).stmob s.slot
    exact h.transfer (by rw [hp]; rfl) (by rw [hp]; rfl) (fun _ => rfl) hx (fun _ => h.ie (by rw [hp]; rfl))

/-! ## Every turn -/

/-- Every effect of a turn keeps what has been written of the frame, reset and initialisation among them. -/
theorem FrameInv.effect {τ : Turn} (h : FrameInv p s) (hseq : SeqInv s) (he : Effect p τ s t) : FrameInv p t := by
  cases he with
  | hold => exact h
  | refused c port w => rw [raise_eq_rebooked]; exact h.rebooked ..
  | gie b hi => exact .of_idle hi
  | stage idx byte hi => exact .of_idle hi
  | setseq byte hi => exact .of_idle hi
  | setdcnt byte hi => exact .of_idle hi
  | send => exact .of_unwritten rfl rfl rfl
  | reclaim q _ hc => exact h.otherMailbox (inPool_ne_absent (reclaimCheck_eq_none.mp hc).1) _ _ _ s.bus
  | transmit q _ he => exact h.otherMailbox (inPool_ne_absent (txEnabled_spec he).1) _ _ s.freeCount _
  | micro _ hb => exact h.microStep hseq (fgMicro_step hseq hb)
  | init d _ _ hi => exact .of_idle hi
  | reset d => exact .of_idle rfl

theorem FrameInv.step (h : FrameInv p s) (hseq : SeqInv s) (hs : stepWith p s = .next t) : FrameInv p t := by
  obtain ⟨n, o, he⟩ := stepWith_effect hs
  exact FrameInv.effect (h.rebooked s.fault o n s.turns.tail (s.ticks + 1)) (hseq.rebooked ..) he

end Sys2Proof.Machine
end

section
/-! PROOFS. The launch invariant is kept by every turn but a reset (10_state R46, 41_send_sequencer R156, R171, 42_reclaim
R199, R269). Its claims about the slots are read as one predicate of a slot's registers, `SlotGood`, so that a turn that
writes one mailbox has one mailbox to answer for. -/

namespace Sys2Proof.Machine

variable {p : Params} {s t : State}

/-! ## The slots -/

/-- A pool slot as a launched run leaves it: disabled, or armed by the block with its interrupt enabled in `ie`. -/
def SlotGood (p : Params) (ie : Byte) (q : Slot) (x : Mailbox) : Prop :=
  conmob x.cdmob = 0b00#2 ∨ (conmob x.cdmob = 0b01#2 ∧ ArmedMailbox p x ∧ ieBit ie q = true)

/-- A slot is Foreign exactly when its in-use bits are neither 0b00 nor 0b01 (R40). -/
theorem slotState_ne_foreign {q : Slot} :
    s.slotState q ≠ .foreign ↔ conmob (s.mob q).cdmob = 0b00#2 ∨ conmob (s.mob q).cdmob = 0b01#2 := by
  unfold State.slotState slotStateOf
  split
  · next h => simp [h]; split <;> simp
  · split
    · next h1 h0 => simp_all
    · next h1 h0 =>
      have h0 : conmob (s.mob q).cdmob = 0b00#2 := by simpa using h0
      simp only [h0, true_or, iff_true]
      split <;> simp

theorem LaunchInv.slotGood (h : LaunchInv p s) {q : Slot} (hq : inPool q = true) :
    SlotGood p s.canie1 q (s.mob q) := by
  rcases slotState_ne_foreign.mp (h.noForeign q hq) with h0 | h1
  · exact .inl h0
  · exact .inr ⟨h1, h.armed q hq h1, h.ie q hq h1⟩

/-- The launch invariant, its claims about the slots put together. -/
theorem LaunchInv.of_slots (ready : ControllerReady s) (seq : SeqInv s) (frame : FrameInv p s)
    (counter : s.freeCount.toNat = s.idleCount)
    (scan : s.phase.scanning = true → ∃ q, inPool q = true ∧ s.slot.toNat ≤ q.toNat ∧ s.slotState q = .idle)
    (slots : ∀ q, inPool q = true → SlotGood p s.canie1 q (s.mob q)) (bus : ∀ f ∈ s.bus, GoodFrame p f) :
    LaunchInv p s := by
  have harmed : ∀ q, inPool q = true → conmob (s.mob q).cdmob = 0b01#2 →
      ArmedMailbox p (s.mob q) ∧ ieBit s.canie1 q = true := by
    intro q hq h1
    rcases slots q hq with h0 | ⟨-, h⟩
    · simp [h1] at h0
    · exact h
  exact
    { ready, seq, frame, counter, scan, bus
      noForeign := fun q hq => slotState_ne_foreign.mpr ((slots q hq).imp id And.left)
      armed := fun q hq h1 => (harmed q hq h1).1
      ie := fun q hq h1 => (harmed q hq h1).2 }

/-- After a write to mailbox `m` the slots are good if what `m` holds now is. -/
theorem LaunchInv.slots_mobSet (h : LaunchInv p s) {m : Slot} {x : Mailbox} (hm : inPool m = true)
    (hx : SlotGood p s.canie1 m x) (q : Slot) (hq : inPool q = true) :
    SlotGood p s.canie1 q (mobAt (mobSet s.mobs m x) q) := by
  rw [mobAt_mobSet q x (inPool_ne_absent hm)]
  split
  · next e => exact e ▸ hx
  · exact h.slotGood hq

/-! ## The count of Idle slots -/

/-- Which slots are Idle is read off the in-use bits and the ownership mark (R40). -/
theorem idleCount_of_use (hu : ∀ q, inPool q = true → conmob (t.mob q).cdmob = conmob (s.mob q).cdmob)
    (hc : t.claimed = s.claimed) : t.idleCount = s.idleCount :=
  idleCount_congr fun q hq => by rw [slotState_eq_idle, slotState_eq_idle, hu q hq, hc]

/-- A mailbox written without its in-use bits changing. -/
theorem conmob_mobSet {v : Vector Mailbox Config.mobCount} {m : Slot} {x : Mailbox} (hm : m ≠ 15#4)
    (hx : conmob x.cdmob = conmob (mobAt v m).cdmob) (q : Slot) :
    conmob (mobAt (mobSet v m x) q).cdmob = conmob (mobAt v q).cdmob := by
  rw [mobAt_mobSet q x hm]
  split
  · next e => rw [hx, e]
  · rfl

/-! ## The frames -/

/-- A mailbox the block armed goes on the bus as a frame of the block (R171, R195). -/
theorem ArmedMailbox.goodFrame {x : Mailbox} (h : ArmedMailbox p x) : GoodFrame p (frameOf x) := by
  have hlen : frameLength (dlcField x.cdmob) = (dlcField x.cdmob).toNat := min_eq_left h.dlcLe
  refine ⟨h.id, ?_, h.dlcGe, h.dlcLe, ?_⟩
  · have := h.dlcLe
    simp [frameOf, hlen]
    omega
  · have := h.dlcGe
    have hb := h.board
    have hne : (dlcField x.cdmob).toNat ≠ 0 := by omega
    rw [← hb, show (frameOf x).bytes = x.msg.toList.take (dlcField x.cdmob).toNat by rw [frameOf, hlen],
      List.head?_take, if_neg hne]
    simp [List.head?_eq_getElem?]

/-- TXOK is no part of what makes a mailbox the block's (R37). -/
theorem ArmedMailbox.status {x : Mailbox} (h : ArmedMailbox p x) (b : Byte) : ArmedMailbox p { x with stmob := b } :=
  ⟨h.id, h.standard, h.dataFrame, h.dlcGe, h.dlcLe, h.board⟩

/-- R171: the mailbox ARM publishes is the block's frame. -/
theorem FrameInv.armedMailbox (h : FrameInv p s) (hp : s.phase = .arm) (hl : s.len.toNat ≤ 4) :
    ArmedMailbox p { s.mob s.slot with cdmob := armValue s.len } := by
  obtain ⟨-, hide, hdlc⟩ := armValue_fields hl
  have hw : s.phase.idtWritten = 4 := by rw [hp]; rfl
  have h1 := h.idt1 (by omega)
  have h2 := h.idt2 (by omega)
  have h4 := h.idt4 (by omega)
  refine ⟨?_, hide, ?_, ?_, ?_, ?_⟩
  · simp only [h1, h2, frameId_split]
  · simp only [h4]; rfl
  · simp only [hdlc]; omega
  · simp only [hdlc]; omega
  · exact h.msg 0 (by rw [hp]; simp [Phase.msgWritten])

/-! ## The launch (R253, R254) -/

theorem InitClean.seqInv (h : InitClean s) (hr : s.canie1.getLsbD 7 = false) : SeqInv s :=
  .of_idle h.phase (by simp [h.counter]) hr h.claimed

/-- In INIT_CLEAN every slot is Idle. -/
theorem InitClean.idleCount (h : InitClean s) : s.idleCount = 7 := by
  have hidle : ∀ q ∈ poolSlots, (s.slotState q == .idle) = true := fun q hq =>
    beq_iff_eq.mpr (slotState_eq_idle.mpr ⟨h.disabled q (mem_poolSlots.mp hq), by simp [h.claimed]⟩)
  rw [State.idleCount, List.countP_eq_length.mpr hidle]
  rfl

/-- R253: INIT_CLEAN is where the launch invariant starts. -/
theorem InitClean.launchInv (p : Params) (h : InitClean s) (hr : s.canie1.getLsbD 7 = false) : LaunchInv p s :=
  .of_slots h.ready (h.seqInv hr) (.of_idle h.phase) (by rw [h.idleCount, h.counter]; rfl)
    (fun hs => by simp [h.phase, Phase.scanning] at hs) (fun q hq => .inl (h.disabled q hq)) (by simp [h.bus])

/-! ## The micro-steps -/

/-- POLL's non-zero reading means an Idle slot, and every pool slot is at or above 8 (R151, R156). -/
theorem LaunchInv.exists_idle (h : LaunchInv p s) (hf : s.freeCount ≠ 0#8) :
    ∃ q, inPool q = true ∧ 8 ≤ q.toNat ∧ s.slotState q = .idle := by
  have hpos : 0 < s.idleCount := by rw [← h.counter]; bv_omega
  obtain ⟨q, hq, hidle⟩ := List.countP_pos_iff.mp hpos
  have hin := mem_poolSlots.mp hq
  exact ⟨q, hin, (inPool_iff.mp hin).1, beq_iff_eq.mp hidle⟩

/-- R153, R156: the slot SCAN_TEST passes is in use, so the Idle slot ahead is a later one. -/
theorem LaunchInv.scan_next (h : LaunchInv p s) (hs : s.phase.scanning = true)
    (hc : conmob (s.mob s.slot).cdmob ≠ 0b00#2) (hlt : s.slot.toNat < 14) :
    ∃ q, inPool q = true ∧ (s.slot + 1#4).toNat ≤ q.toNat ∧ s.slotState q = .idle := by
  obtain ⟨q, hq, hle, hidle⟩ := h.scan hs
  have hne : s.slot.toNat ≠ q.toNat := by
    intro e
    rw [BitVec.eq_of_toNat_eq e] at hc
    exact hc (slotState_eq_idle.mp hidle).1
  exact ⟨q, hq, by bv_omega, hidle⟩

/-- CLAIM takes the slot found out of the Idle ones, and the counter with it (R159). -/
theorem LaunchInv.claim_counter (h : LaunchInv p s) (hp : s.phase = .claim)
    (ht : t = { s with freeCount := s.freeCount - 1#8, claimed := some s.slot, phase := .page }) :
    t.freeCount.toNat = t.idleCount := by
  have hfree : conmob (s.mob s.slot).cdmob = 0b00#2 := h.seq.foundFree (by rw [hp]; rfl)
  have hnone : s.claimed = none := h.seq.claimed_none (by rw [hp]; rfl)
  have hin : inPool s.slot = true := h.seq.inPool_of_found (by rw [hp]; rfl)
  have hpos : s.freeCount ≠ 0#8 := h.seq.counterPos (by rw [hp]; rfl)
  have hmore : s.idleCount = t.idleCount + 1 := by
    subst ht
    apply idleCount_one_more hin
    · intro q hq
      simp [slotState_eq_idle, hnone, Ne.symm hq]
    · simp [slotState_eq_idle]
    · exact slotState_eq_idle.mpr ⟨hfree, by simp [hnone]⟩
  have := h.counter
  subst ht
  show (s.freeCount - 1#8).toNat = _
  bv_omega

/-- ARM moves the claimed slot to InFlight: it was not Idle before and is not after (R169). -/
theorem LaunchInv.arm_idleCount (h : LaunchInv p s) (hp : s.phase = .arm) :
    ((s.updMob s.slot (fun x => { x with cdmob := armValue s.len })).disown.goto .done).idleCount = s.idleCount := by
  have hmine : s.claimed = some s.slot := h.seq.claimed_some (by rw [hp]; rfl)
  have hin : inPool s.slot = true := h.seq.inPool_of_found (by rw [hp]; rfl)
  obtain ⟨hused, -, -⟩ := armValue_fields (h.seq.lenLe (by simp [hp]))
  apply idleCount_congr
  intro q hq
  by_cases e : q = s.slot
  · subst e
    simp [slotState_eq_idle, mobAt_mobSet_self _ (inPool_ne_absent hin), hused, hmine]
  · simp [slotState_eq_idle, mobAt_mobSet_ne _ e, hmine, Ne.symm e]

/-- A micro-step that writes the found slot's mailbox but not its control register (R158, R161-R166). -/
theorem LaunchInv.found_write (h : LaunchInv p s) (hf : s.phase.found = true) {x : Mailbox}
    (hmobs : t.mobs = mobSet s.mobs s.slot x) (hx : x.cdmob = (s.mob s.slot).cdmob)
    (hcount : t.freeCount = s.freeCount) (hclaim : t.claimed = s.claimed) (hcanie : t.canie1 = s.canie1)
    (hready : ControllerReady t) (hseq : SeqInv t) (hframe : FrameInv p t) (ht : t.phase.scanning = false)
    (hbus : ∀ f ∈ t.bus, GoodFrame p f) : LaunchInv p t := by
  have hin := h.seq.inPool_of_found hf
  have hfree : conmob x.cdmob = 0b00#2 := hx ▸ h.seq.foundFree hf
  have hidle : t.idleCount = s.idleCount :=
    idleCount_of_use (fun q _ => by
      rw [mob_eq, hmobs]; exact conmob_mobSet (inPool_ne_absent hin) (congrArg conmob hx) q) hclaim
  refine .of_slots hready hseq hframe (by rw [hcount, hidle, h.counter]) (fun e => by simp [ht] at e) ?_ hbus
  intro q hq
  rw [mob_eq, hmobs, hcanie]
  exact h.slots_mobSet hin (.inl hfree) q hq

/-- Every micro-step keeps the launch invariant. -/
theorem LaunchInv.microStep (h : LaunchInv p s) (hready : ControllerReady t) (hbus : t.bus = s.bus)
    (hm : MicroStep p s t) : LaunchInv p t := by
  have hbusy := hm.busy
  have hseq := h.seq.microStep hm
  have hframe := h.frame.microStep h.seq hm
  have hbus : ∀ f ∈ t.bus, GoodFrame p f := hbus ▸ h.bus
  have hslots := fun q => h.slotGood (q := q)
  cases hm with
  | spin => exact h
  | start hp hz => exact .of_slots hready hseq hframe h.counter (fun _ => h.exists_idle hz) hslots hbus
  | scanPage hp =>
    exact .of_slots hready hseq hframe h.counter (fun _ => h.scan (by rw [hp]; rfl)) hslots hbus
  | found => exact .of_slots hready hseq hframe h.counter nofun hslots hbus
  | skip hp hc hs =>
    exact .of_slots hready hseq hframe h.counter (fun _ => h.scan_next (by rw [hp]; rfl) hc hs) hslots hbus
  | exhausted =>
    have hidle : ((s.raiseFg .errNoslot).goto .idle).idleCount = s.idleCount :=
      idleCount_of_use (fun q _ => by simp) (by simp)
    exact .of_slots hready hseq hframe (by simp [hidle, h.counter]) nofun (by simpa using hslots) hbus
  | clrRead => exact .of_slots hready hseq hframe h.counter nofun hslots hbus
  | clrWrite hp =>
    exact h.found_write (by rw [hp]; rfl) rfl rfl rfl rfl rfl hready hseq hframe rfl hbus
  | claim hp => exact .of_slots hready hseq hframe (h.claim_counter hp rfl) nofun hslots hbus
  | page => exact .of_slots hready hseq hframe h.counter nofun hslots hbus
  | idt f n hw =>
    obtain ⟨⟨hs, -, -⟩, ⟨hn, -, -, -⟩, hf⟩ := hw.spec
    exact h.found_write (Phase.found_of_owned hs) rfl (hf _).1 rfl rfl rfl hready hseq hframe
      (Phase.scanning_of_found (Phase.found_of_owned hn)) hbus
  | data j n hw =>
    obtain ⟨⟨hs, -, -⟩, hn, -, -, -⟩ := hw.spec (h.seq.lenLe hbusy)
    exact h.found_write (Phase.found_of_owned hs) rfl rfl rfl rfl rfl hready hseq hframe
      (Phase.scanning_of_found (Phase.found_of_owned hn)) hbus
  | enieRead => exact .of_slots hready hseq hframe h.counter nofun hslots hbus
  | enieWrite hp ht =>
    refine .of_slots hready hseq hframe h.counter nofun (fun q hq => ?_) hbus
    exact (hslots q hq).imp id fun ⟨h1, ha, hie⟩ => ⟨h1, ha, ieBit_or_mono hq (ht ▸ hie)⟩
  | arm hp =>
    have hin := h.seq.inPool_of_found (by rw [hp]; rfl)
    have hlen := h.seq.lenLe hbusy
    refine .of_slots hready hseq hframe (by rw [h.arm_idleCount hp]; exact h.counter) nofun ?_ hbus
    obtain ⟨hused, -, -⟩ := armValue_fields hlen
    exact h.slots_mobSet hin (.inr ⟨hused, h.frame.armedMailbox hp hlen, h.frame.ie (by rw [hp]; rfl)⟩)
  | done => exact .of_slots hready hseq hframe h.counter nofun hslots hbus

/-! ## The other agents -/

theorem LaunchInv.rebooked (h : LaunchInv p s) (f : Option FaultRecord) (o : Option HostOp) (n : Nat)
    (ts : List Turn) (k : Nat) : LaunchInv p (s.rebooked f o n ts k) :=
  ⟨h.ready.congr rfl rfl, h.seq.rebooked .., h.frame.rebooked .., h.counter, h.scan, h.noForeign, h.armed, h.ie, h.bus⟩

/-- What HOST's accepted operations write is no slot's, and they start no scan (R132-R135, R139). -/
theorem LaunchInv.hostOp (h : LaunchInv p s) (hseq : SeqInv t) (hframe : FrameInv p t)
    (ht : t = { s with
      ty := t.ty, len := t.len, seq := t.seq, dcnt := t.dcnt, pay := t.pay, gie := t.gie, phase := t.phase })
    (hp : t.phase.scanning = false) : LaunchInv p t := by
  rw [ht] at hseq hframe ⊢
  exact .of_slots (h.ready.congr rfl rfl) hseq hframe h.counter (fun e => by simp [hp] at e)
    (fun q => h.slotGood (q := q)) h.bus

/-- R190: RECLAIM turns its slot Idle and counts it; no slot that was Idle is lost to the scan. -/
theorem LaunchInv.release (h : LaunchInv p s) {q : Slot} (hc : s.reclaimCheck q = none) : LaunchInv p (s.release q) := by
  obtain ⟨hin, hused, -, hcount⟩ := reclaimCheck_eq_none.mp hc
  have habsent := inPool_ne_absent hin
  have hmine : s.claimed ≠ some q := by
    intro e
    obtain ⟨hfree, -, -, -⟩ := h.seq.of_claimed e
    simp [hfree] at hused
  have hself : (s.release q).slotState q = .idle :=
    slotState_eq_idle.mpr ⟨by simp [mobAt_mobSet_self _ habsent], hmine⟩
  have hother : ∀ a, a ≠ q → (s.release q).slotState a = s.slotState a := fun a ha =>
    slotState_congr (mobAt_mobSet_ne _ ha) rfl
  have hmore : (s.release q).idleCount = s.idleCount + 1 :=
    idleCount_one_more hin (fun a ha => by rw [hother a ha]) (by simp [slotState_eq_idle, hused]) hself
  refine .of_slots (h.ready.congr rfl rfl) (h.seq.release hc)
    (h.frame.otherMailbox habsent _ _ _ s.bus) ?_ (fun hs => ?_) (h.slots_mobSet hin (.inl conmob_zero)) h.bus
  · have := h.counter
    have := h.seq.counterLe
    rw [hmore, release_freeCount]
    bv_omega
  · obtain ⟨a, ha, hle, hidle⟩ := h.scan hs
    refine ⟨a, ha, hle, ?_⟩
    by_cases e : a = q
    · exact e ▸ hself
    · rw [hother a e, hidle]

/-- R195: TX sets TXOK of an armed slot, which stays in use, and sends the block's frame. -/
theorem LaunchInv.transmit (h : LaunchInv p s) {q : Slot} (he : s.txEnabled q = true) : LaunchInv p (s.transmit q) := by
  obtain ⟨hin, hused⟩ := txEnabled_spec he
  have habsent := inPool_ne_absent hin
  have harmed := h.armed q hin hused
  have huse := conmob_mobSet (v := s.mobs) (x := { s.mob q with stmob := setTxok (s.mob q).stmob }) habsent rfl
  have hidle : (s.transmit q).idleCount = s.idleCount := idleCount_of_use (fun a _ => huse a) rfl
  refine .of_slots (h.ready.congr rfl rfl) (h.seq.transmit he) (h.frame.otherMailbox habsent _ _ s.freeCount _) ?_
    (fun hs => ?_) (h.slots_mobSet hin (.inr ⟨hused, harmed.status _, h.ie q hin hused⟩)) ?_
  · rw [transmit_freeCount, hidle, h.counter]
  · obtain ⟨a, ha, hle, hidle⟩ := h.scan hs
    obtain ⟨hfree, hclaim⟩ := slotState_eq_idle.mp hidle
    exact ⟨a, ha, hle, slotState_eq_idle.mpr ⟨(huse a).trans hfree, hclaim⟩⟩
  · intro f hf
    rcases List.mem_append.mp hf with hf | hf
    · exact h.bus f hf
    · rw [List.mem_singleton.mp hf]
      exact harmed.goodFrame

/-! ## Every turn -/

/-- Every effect of a turn but a reset keeps the launch invariant; the initialisation does not run a second time. -/
theorem LaunchInv.effect {τ : Turn} (h : LaunchInv p s) (hτ : τ ≠ .reset) (he : Effect p τ s t) : LaunchInv p t := by
  have hseq := h.seq.effect he
  have hframe := h.frame.effect h.seq he
  cases he with
  | hold => exact h
  | refused c port w => rw [raise_eq_rebooked]; exact h.rebooked ..
  | gie b hi => exact h.hostOp hseq hframe rfl (by rw [hi]; rfl)
  | stage idx byte hi => exact h.hostOp hseq hframe rfl (by rw [hi]; rfl)
  | setseq byte hi => exact h.hostOp hseq hframe rfl (by rw [hi]; rfl)
  | setdcnt byte hi => exact h.hostOp hseq hframe rfl (by rw [hi]; rfl)
  | send ty len hi hc => exact h.hostOp hseq hframe rfl rfl
  | reclaim q _ hc => exact h.release hc
  | transmit q _ he => exact h.transmit he
  | micro _ hb =>
    have hout := fgMicro_sameOutside p s
    exact h.microStep (h.ready.congr hout.initialised hout.other) hout.bus (fgMicro_step h.seq hb)
  | init d _ hn _ => simp [h.ready.initialised] at hn
  | reset d hr => exact absurd hr hτ

theorem LaunchInv.step (h : LaunchInv p s) (hn : nextTurn p s ≠ .reset) (hs : stepWith p s = .next t) :
    LaunchInv p t := by
  obtain ⟨n, o, he⟩ := stepWith_effect hs
  exact LaunchInv.effect (h.rebooked s.fault o n s.turns.tail (s.ticks + 1)) hn he

/-- The launch invariant holds throughout a run without a reset that starts with it, under every schedule. -/
theorem IsRun.launchInv {r : Nat → State} (hr : IsRun p r) (hn : ∀ n, nextTurn p (r n) ≠ .reset)
    (h0 : LaunchInv p (r 0)) (n : Nat) : LaunchInv p (r n) := by
  induction n with
  | zero => exact h0
  | succ n ih => exact ih.step (hn n) (hr n)

end Sys2Proof.Machine
end

section
/-! PROOFS. What the block leaves alone (10_state R33, R41, R42, R45), whom a Claimed slot belongs to (R47), and the
statements about the state: the invariants of a step, and what they say of every run. -/

namespace Sys2Proof.Machine

variable {p : Params} {s t : State}

/-! ## Frames -/

/-- A micro-step writes no mailbox but the slot register's (R73, R157, R160). -/
theorem MicroStep.mob_of_ne_slot (hm : MicroStep p s t) {q : Slot} (hq : q ≠ s.slot) : t.mob q = s.mob q := by
  cases hm with
  | spin | start | scanPage | found | skip | clrRead | claim | page | enieRead | enieWrite | done => rfl
  | exhausted => simp
  | clrWrite | idt | data | arm => exact mobAt_mobSet_ne _ hq

/-- A micro-step writes no mailbox outside the pool (R33): POLL writes none, and in every other phase `s` is in the pool. -/
theorem MicroStep.mob_outside_pool (hm : MicroStep p s t) (h : SeqInv s) {q : Slot} (hq : inPool q = false) :
    t.mob q = s.mob q := by
  by_cases hp : s.phase = .poll
  · cases hm with
    | spin | start => rfl
    | idt f n hw => rw [hp] at hw; cases hw
    | data j n hw => rw [hp] at hw; cases hw
    | _ => simp_all
  · refine hm.mob_of_ne_slot ?_
    rintro rfl
    simp [h.slotInPool hm.busy hp] at hq

/-- Every effect but the initialisation's and a reset's leaves the mailboxes outside the pool, CANIE2 and R42's registers. -/
theorem Effect.outside_pool {τ : Turn} (he : Effect p τ s t) (h : SeqInv s) (hi : τ ≠ .init) (hr : τ ≠ .reset) :
    t.other = s.other ∧ t.canie2 = s.canie2 ∧ ∀ q, inPool q = false → t.mob q = s.mob q := by
  have hne {a q : Slot} (ha : inPool a = true) (hq : inPool q = false) : q ≠ a := by
    rintro rfl; simp [ha] at hq
  cases he with
  | hold | gie | stage | setseq | setdcnt | send => exact ⟨rfl, rfl, fun _ _ => rfl⟩
  | refused => simp
  | reclaim a _ hc =>
    exact ⟨rfl, rfl, fun q hq => mobAt_mobSet_ne _ (hne (reclaimCheck_eq_none.mp hc).1 hq)⟩
  | transmit a _ he => exact ⟨rfl, rfl, fun q hq => mobAt_mobSet_ne _ (hne (txEnabled_spec he).1 hq)⟩
  | micro _ hb =>
    have hout := fgMicro_sameOutside p s
    exact ⟨hout.other, hout.canie2, fun q hq => (fgMicro_step h hb).mob_outside_pool h hq⟩
  | init d hτ => exact absurd hτ hi
  | reset d hτ => exact absurd hτ hr

/-- Only TX appends to the bus log, one frame, and only a reset clears it (R45). -/
theorem Effect.bus {τ : Turn} (he : Effect p τ s t) (hr : τ ≠ .reset) :
    t.bus = s.bus ∨ ∃ q f, τ = .ctrl q ∧ t.bus = s.bus ++ [f] := by
  cases he with
  | hold | gie | stage | setseq | setdcnt | send | reclaim | init => exact .inl rfl
  | refused => exact .inl (raise_bus ..)
  | transmit q hτ _ => exact .inr ⟨q, _, hτ, rfl⟩
  | micro => exact .inl (fgMicro_sameOutside p s).bus
  | reset d hτ => exact absurd hτ hr

/-! ## Ownership (R40) -/

/-- Only the slot named by `claimed` is Claimed (R40). -/
theorem claimed_of_slotState {q : Slot} (h : s.slotState q = .claimed) : s.claimed = some q := by
  unfold State.slotState slotStateOf at h
  split at h
  · split at h <;> cases h
  · split at h
    · cases h
    · split at h
      · next hm => exact beq_iff_eq.mp hm
      · cases h

/-! ## The obligations -/

/-- Settles O40: each effect of a turn keeps the invariant. -/
theorem sequencerInvariantKept : Obligations.SequencerInvariantKept := fun _ _ h hs => h.step hs

/-- Settles O41: each effect of a turn but a reset keeps the invariant. -/
theorem launchInvariantKept : Obligations.LaunchInvariantKept := fun _ _ h hn hs => h.step hn hs

/-- Settles O42: the sequencer's invariant holds throughout a run from reset. -/
theorem counterStaysInRange : Obligations.CounterStaysInRange := by
  intro p r hr h0 n
  have h := hr.seqInv h0.seqInv n
  refine ⟨h.counterLe, fun hp => ?_⟩
  have hpos := h.counterPos (by rw [hp]; rfl)
  bv_omega

/-- Settles O43: the launch invariant, which counts the Idle slots, holds throughout a run from INIT_CLEAN. -/
theorem counterEqualsIdleSlots : Obligations.CounterEqualsIdleSlots := by
  intro p r hr h0 hreserved hn n
  rw [(hr.launchInv hn (h0.launchInv p hreserved) n).counter, State.idleCount, List.countP_eq_length_filter]
  rfl

/-- Settles O44: the sequencer's invariant ties the ownership mark to the slot register. -/
theorem ownershipInvariant : Obligations.OwnershipInvariant := by
  intro p r hr h0 n
  refine ⟨fun a b ha hb => ?_, fun q hc => (hr.seqInv h0.seqInv n).of_claimed hc⟩
  have hab := (claimed_of_slotState ha).symm.trans (claimed_of_slotState hb)
  exact Option.some.inj hab

/-- Settles O51: mailboxes 0..7 are outside the pool. -/
theorem registersOutsideTheBlockAreLeftAlone : Obligations.RegistersOutsideTheBlockAreLeftAlone := by
  intro s t h hi hr hs
  obtain ⟨n, o, he⟩ := stepWith_effect hs
  obtain ⟨hother, hie2, hmob⟩ := he.outside_pool (h.rebooked ..) hi hr
  refine ⟨hother, hie2, fun q hq => hmob q (Bool.eq_false_iff.mpr fun hin => ?_)⟩
  have hge := (inPool_iff.mp hin).1
  omega

/-- Settles O52: TX is the only effect that touches the bus log, reset apart. -/
theorem onlyCtrlAppendsToTheBus : Obligations.OnlyCtrlAppendsToTheBus := by
  intro s t hr hs
  obtain ⟨n, o, he⟩ := stepWith_effect hs
  exact he.bus hr

end Sys2Proof.Machine
end

section
/-! PROOFS. The paged accesses (20_memory R74, R75): what a micro-step's access does while MOBNB = 15, and how a CANMSG
access moves the data cursor. -/

namespace Sys2Proof.Machine

/-! ## Page 15 (R74) -/

/-- The phases whose micro-step accesses a paged register (R73). CLAIM, PAGE, ENIE_READ, ENIE_WRITE and DONE stand on a
selected page (`Phase.paged`) and access none. -/
def Phase.accessesPaged : Phase → Bool
  | .scanTest | .clrRead | .clrWrite | .wrid1 | .wrid2 | .wrid3 | .wrid4 | .wrhdr _ | .wrpay _ | .arm => true
  | .idle | .poll | .scanPage | .claim | .page | .enieRead | .enieWrite | .done => false

theorem raiseFg_eq (s : State) (c : Fault) :
    s.raiseFg c = { s with fault := some (s.fault.getD ⟨c, .fg, (Instr.send s.ty s.len).encode⟩) } := by
  rw [State.raiseFg, raise_eq, raise_fault, State.sendWord]

theorem fgArm_illegal {s : State} (h : mobnb s.canpage = 15#4) : fgArm s = s.raiseFg .errIllegal := by
  simp [fgArm, State.regWrite, pagedWrite_illegal h]

/-- The micro-step of every phase that accesses a paged register is a `writeThen` or a `readThen` of one, or ARM. -/
theorem fgMicro_illegal {p : Params} {s : State} (h : mobnb s.canpage = 15#4) (ha : s.phase.accessesPaged = true) :
    fgMicro p s = s.raiseFg .errIllegal := by
  have hwrite {r : RegName} := writeThen_illegal h (r := r)
  have hread {r : RegName} := readThen_illegal h (r := r)
  cases hp : s.phase with simp only [fgMicro, hp] at ha ⊢
  | idle | poll | scanPage | claim | page | enieRead | enieWrite | done => cases ha
  | scanTest | clrRead => exact hread (by decide) (by decide) _
  | clrWrite | wrid1 | wrid2 | wrid3 | wrid4 | wrhdr _ | wrpay _ => exact hwrite (by decide) (by decide) _ _
  | arm => exact fgArm_illegal h

/-! ## CANMSG (R75) -/

theorem regWrite_canmsg {s : State} (h : mobnb s.canpage ≠ 15#4) (v : Byte) :
    s.regWrite v .canmsg = some (s.updMob (mobnb s.canpage) (fun x => setMsg x (indx s.canpage) v)).afterMsg := by
  rw [State.regWrite, pagedWrite_of_page h, Option.map_some]

theorem regRead_canmsg {s : State} (h : mobnb s.canpage ≠ 15#4) :
    s.regRead .canmsg = some (getMsg (s.mob (mobnb s.canpage)) (indx s.canpage), s.afterMsg) := by
  rw [State.regRead, pagedRead_of_page h, Option.map_some]

/-- The cursor after a CANMSG access, with AINC set and clear. -/
theorem indx_pageAfterMsg_of_ainc (b : Byte) :
    (indx (pageAfterMsg b)).toNat = if ainc b = true then (indx b).toNat else ((indx b).toNat + 1) % 8 := by
  cases ha : ainc b with
  | true => simp [pageAfterMsg, ha]
  | false => simpa using indx_pageAfterMsg_toNat ha (Nat.mod_eq_of_lt (indx b).isLt).symm

/-! ## The obligations -/

/-- Settles O37: each listed phase accesses a paged register, and the access only raises ERR_ILLEGAL. -/
theorem pageFifteenIsIllegal : Obligations.PageFifteenIsIllegal := by
  intro p s hpage hphase
  have haccess : s.phase.accessesPaged = true := by
    revert hphase
    generalize s.phase = ph
    revert ph
    decide
  rw [fgMicro_illegal hpage haccess, raiseFg_eq]

/-- Settles O38: write and read share the side effect on CANPAGE, `pageAfterMsg`. -/
theorem canmsgAccessMovesTheCursor : Obligations.CanmsgAccessMovesTheCursor := by
  intro s v hpage
  have hmob := mobnb_pageAfterMsg s.canpage
  have hainc := ainc_pageAfterMsg s.canpage
  have hindx := indx_pageAfterMsg_of_ainc s.canpage
  exact ⟨⟨_, regWrite_canmsg hpage v, rfl, hmob, hainc, hindx⟩,
    ⟨_, _, regRead_canmsg hpage, rfl, rfl, hmob, hainc, hindx⟩⟩

end Sys2Proof.Machine
end

section
/-! PROOFS. The encoder and the decoder are inverse (30_encoding R101-R109). Both are tied to one description of a
command word, the values of its fields (`HasFields`): the encoder writes exactly these, the decoder asks for exactly
these. -/

namespace Sys2Proof

/-! ## Words written side by side -/

theorem append_eq_iff {m n : Nat} {a : BitVec m} {b : BitVec n} {w : BitVec (m + n)} :
    a ++ b = w ↔ w.extractLsb' n m = a ∧ w.extractLsb' 0 n = b := by
  constructor
  · rintro rfl
    exact ⟨BitVec.extractLsb'_append_eq_left, BitVec.extractLsb'_append_eq_right⟩
  · rintro ⟨rfl, rfl⟩
    exact BitVec.extractLsb'_append_extractLsb'

/-- A field of the part above the lowest `n` bits is a field of the whole. -/
theorem extractLsb'_of_high {m n start len : Nat} (w : BitVec (m + n)) (h : start + len ≤ m) :
    (w.extractLsb' n m).extractLsb' start len = w.extractLsb' (n + start) len := by
  apply BitVec.eq_of_getLsbD_eq
  intro i hi
  simp [hi, show start + i < m by omega, Nat.add_assoc]

theorem append_three_eq_iff {l m n : Nat} {a : BitVec l} {b : BitVec m} {c : BitVec n} {w : BitVec (l + m + n)} :
    a ++ b ++ c = w ↔ w.extractLsb' (n + m) l = a ∧ w.extractLsb' n m = b ∧ w.extractLsb' 0 n = c := by
  rw [append_eq_iff, eq_comm, append_eq_iff, extractLsb'_of_high w (by omega), extractLsb'_of_high w (by omega),
    Nat.add_zero, and_assoc]

theorem append_four_eq_iff {k l m n : Nat} {a : BitVec k} {b : BitVec l} {c : BitVec m} {d : BitVec n}
    {w : BitVec (k + l + m + n)} :
    a ++ b ++ c ++ d = w ↔ w.extractLsb' (n + (m + l)) k = a ∧ w.extractLsb' (n + m) l = b ∧
      w.extractLsb' n m = c ∧ w.extractLsb' 0 n = d := by
  rw [append_eq_iff, eq_comm, append_three_eq_iff, extractLsb'_of_high w (by omega),
    extractLsb'_of_high w (by omega), extractLsb'_of_high w (by omega), Nat.add_zero, and_assoc, and_assoc]

/-! ## The fields of a command word (R101) -/

/-- The fields of `w`, from bit 15 down, hold a command's opcode, operands and zero reserved bits (R101, R103, R104). -/
def HasFields (w : Word) : Instr → Prop
  | .send ty len => opField w = 0x1#4 ∧ typeField w = ty ∧ w.extractLsb' 3 1 = 0#1 ∧ lenField w = len
  | .stage idx byte => opField w = 0x2#4 ∧ idxField w = idx ∧ w.extractLsb' 8 2 = 0#2 ∧ byteField w = byte
  | .setseq byte => opField w = 0x3#4 ∧ w.extractLsb' 8 4 = 0#4 ∧ byteField w = byte
  | .setdcnt byte => opField w = 0x4#4 ∧ w.extractLsb' 8 4 = 0#4 ∧ byteField w = byte
  | .reclaim slot => opField w = 0x8#4 ∧ w.extractLsb' 4 8 = 0#8 ∧ slotField w = slot

variable {w : Word} {i : Instr}

/-- The encoder writes a command's fields and no other bit. -/
theorem encode_eq_iff : i.encode = w ↔ HasFields w i := by
  cases i with
  | send ty len => exact append_four_eq_iff
  | stage idx byte => exact append_four_eq_iff
  | setseq byte => exact append_three_eq_iff
  | setdcnt byte => exact append_three_eq_iff
  | reclaim slot => exact append_three_eq_iff

theorem guardReserved_eq_cmd_iff {reservedZero : Bool} {j : Instr} :
    guardReserved reservedZero j = .cmd i ↔ reservedZero = true ∧ j = i := by
  cases reservedZero <;> simp [guardReserved]

/-- The decoder asks for a command's fields and no other bit. -/
theorem decodeWord_eq_cmd_iff_hasFields : decodeWord w = .cmd i ↔ HasFields w i := by
  constructor
  · intro h
    unfold decodeWord at h
    split_ifs at h with hop hop hop hop hop
    all_goals
      obtain ⟨hreserved, rfl⟩ := guardReserved_eq_cmd_iff.mp h
      simp only [beq_iff_eq] at hreserved
      simp [HasFields, hop, hreserved]
  · intro h
    cases i with
    | send ty len =>
      obtain ⟨hop, rfl, hreserved, rfl⟩ := h
      simp [decodeWord, guardReserved, hop, hreserved]
    | stage idx byte =>
      obtain ⟨hop, rfl, hreserved, rfl⟩ := h
      simp [decodeWord, guardReserved, hop, hreserved]
    | setseq byte | setdcnt byte | reclaim slot =>
      obtain ⟨hop, hreserved, rfl⟩ := h
      simp [decodeWord, guardReserved, hop, hreserved]

/-- R105: the port check passes the commands of the port and nothing else. -/
theorem checkPort_eq_cmd_iff {port : Port} {d : Decoded} :
    checkPort port d = .cmd i ↔ d = .cmd i ∧ i.port = port := by
  cases d with
  | cmd j =>
    by_cases hport : j.port = port
    · simp only [checkPort, if_pos hport, Decoded.cmd.injEq]
      exact ⟨fun hj => ⟨hj, hj ▸ hport⟩, And.left⟩
    · simp only [checkPort, if_neg hport, reduceCtorEq, Decoded.cmd.injEq, false_iff]
      rintro ⟨rfl, h⟩
      exact hport h
  | illegal why => simp [checkPort]

/-! ## Decoding and encoding -/

/-- R106, R108: before the port check, a word decodes to the command whose encoding it is, and to no other. -/
theorem decodeWord_eq_cmd_iff : decodeWord w = .cmd i ↔ i.encode = w :=
  decodeWord_eq_cmd_iff_hasFields.trans encode_eq_iff.symm

@[simp] theorem decodeWord_encode (i : Instr) : decodeWord i.encode = .cmd i :=
  decodeWord_eq_cmd_iff.mpr rfl

/-- R106, R108: a word decodes on a port to the command of that port whose encoding it is, and to no other. -/
theorem decode_eq_cmd_iff {port : Port} : decode port w = .cmd i ↔ i.encode = w ∧ i.port = port :=
  checkPort_eq_cmd_iff.trans (and_congr_left' decodeWord_eq_cmd_iff)

/-! ## The rows of the command table (R109) -/

/-- A command's row of R109: its port, and the columns "match" and "mask". -/
def Instr.row (i : Instr) : Port × Word × Word := (i.port, i.matchBits, i.maskBits)

/-- The five rows of R109, written out. -/
def tableRows : List (Port × Word × Word) :=
  [(.fg, 0x1000#16, 0xF008#16), (.fg, 0x2000#16, 0xF300#16), (.fg, 0x3000#16, 0xFF00#16),
    (.fg, 0x4000#16, 0xFF00#16), (.irq, 0x8000#16, 0xFFF0#16)]

/-- The rows written out are the commands' own. -/
theorem mem_tableRows_iff {row : Port × Word × Word} : row ∈ tableRows ↔ ∃ i : Instr, i.row = row := by
  constructor
  · intro h
    simp only [tableRows, List.mem_cons, List.not_mem_nil, or_false] at h
    rcases h with rfl | rfl | rfl | rfl | rfl
    · exact ⟨.send 0 0, rfl⟩
    · exact ⟨.stage 0 0, rfl⟩
    · exact ⟨.setseq 0, rfl⟩
    · exact ⟨.setdcnt 0, rfl⟩
    · exact ⟨.reclaim 0, rfl⟩
  · rintro ⟨i, rfl⟩
    cases i with
    | send | stage | setseq | setdcnt | reclaim =>
      simp [tableRows, Instr.row, Instr.port, Instr.matchBits, Instr.maskBits]

/-- A command's word matches the command's row. -/
theorem encode_matches_row (i : Instr) : i.encode &&& i.maskBits = i.matchBits := by
  cases i with
  | send ty len => exact Laws.EncodeMatch.send ty len
  | stage idx byte => exact Laws.EncodeMatch.stage idx byte
  | setseq byte => exact Laws.EncodeMatch.setseq byte
  | setdcnt byte => exact Laws.EncodeMatch.setdcnt byte
  | reclaim slot => exact Laws.EncodeMatch.reclaim slot

/-- A field that the mask covers whole has its value in the match. -/
theorem extractLsb'_of_masked {mask fixed : Word} {start len : Nat} {x : BitVec len} (h : w &&& mask = fixed)
    (hmask : mask.extractLsb' start len = BitVec.allOnes len) (hx : fixed.extractLsb' start len = x) :
    w.extractLsb' start len = x := by
  rw [← hx, ← h, BitVec.extractLsb'_and, hmask, BitVec.and_allOnes]

/-- A word that matches a command's row is that command's word with the operands the word holds: the mask covers the
opcode and the reserved bits, and every other field is an operand. -/
theorem exists_encode_of_matches_row (h : w &&& i.maskBits = i.matchBits) :
    ∃ j : Instr, j.encode = w ∧ j.port = i.port := by
  have hfixed {start len : Nat} {x : BitVec len} := extractLsb'_of_masked h (start := start) (x := x)
  cases i with simp only [Instr.maskBits, Instr.matchBits] at hfixed
  | send =>
    exact ⟨.send (typeField w) (lenField w),
      encode_eq_iff.mpr ⟨hfixed (by decide) (by decide), rfl, hfixed (by decide) (by decide), rfl⟩, rfl⟩
  | stage =>
    exact ⟨.stage (idxField w) (byteField w),
      encode_eq_iff.mpr ⟨hfixed (by decide) (by decide), rfl, hfixed (by decide) (by decide), rfl⟩, rfl⟩
  | setseq =>
    exact ⟨.setseq (byteField w),
      encode_eq_iff.mpr ⟨hfixed (by decide) (by decide), hfixed (by decide) (by decide), rfl⟩, rfl⟩
  | setdcnt =>
    exact ⟨.setdcnt (byteField w),
      encode_eq_iff.mpr ⟨hfixed (by decide) (by decide), hfixed (by decide) (by decide), rfl⟩, rfl⟩
  | reclaim =>
    exact ⟨.reclaim (slotField w),
      encode_eq_iff.mpr ⟨hfixed (by decide) (by decide), hfixed (by decide) (by decide), rfl⟩, rfl⟩

/-! ## The obligations -/

/-- Settles O2: the word of a command has the command's fields, so only the port check is left. -/
theorem decodeOfEncode : Obligations.DecodeOfEncode := by
  intro port i
  rw [decode, decodeWord_encode, checkPort]

/-- Settles O3: the decoder asks for every bit that the encoder writes. -/
theorem encodeOfDecode : Obligations.EncodeOfDecode := fun _ _ _ => decode_eq_cmd_iff.mp

/-- Settles O4: a row fixes exactly the opcode and the reserved bits; the bits it leaves free are the operands. -/
theorem legalExactlyWhenARowMatches : Obligations.LegalExactlyWhenARowMatches := by
  intro port w
  constructor
  · rintro ⟨i, hi⟩
    obtain ⟨rfl, hport⟩ := decode_eq_cmd_iff.mp hi
    exact ⟨i.row, mem_tableRows_iff.mpr ⟨i, rfl⟩, hport, encode_matches_row i⟩
  · rintro ⟨row, hrow, hport, hmatch⟩
    obtain ⟨i, rfl⟩ := mem_tableRows_iff.mp hrow
    obtain ⟨j, hj, hsame⟩ := exists_encode_of_matches_row hmatch
    exact ⟨j, decode_eq_cmd_iff.mpr ⟨hj, hsame.trans hport⟩⟩

/-- Settles O1: the seven commands are encodings of theirs; each of the five other words fails one check of R106. -/
theorem tableWordsDecode : Obligations.TableWordsDecode := by
  unfold Obligations.TableWordsDecode
  decide

end Sys2Proof
end

section
/-! PROOFS. A word on a port (30_encoding R100, R106; 40_commands R131): what its step does when it decodes to a command
and when it is ILLEGAL. -/

namespace Sys2Proof.Machine

variable {s : State} {w : Word}

/-! ## A word on a port -/

theorem portWord_of_cmd {port : Port} {i : Instr} (h : decode port w = .cmd i) : portWord port w s = exec i s := by
  rw [portWord, h]

theorem portWord_of_illegal {port : Port} {why : Illegal} (h : decode port w = .illegal why) :
    portWord port w s = .next (s.raise .errIllegal port w) := by
  rw [portWord, h]

/-- With FG idle, HOST's turn puts the word that is first at the FG port on it (R130; log 4). -/
theorem step_of_hostWord {op : HostOp} (hturn : nextTurn Config.params s = .host op) (hword : s.held.getD op = .issue w)
    (hidle : s.phase = .idle) : step s = portWord .fg w (s.begun.hold none) := by
  have hpop : s.pop.phase = .idle := hidle
  rw [step_of_nextTurn hturn, takeTurn, hostTurn, if_pos hpop, pop_held, hword]
  rfl

/-- A word fed to the IRQ port is put on it in every phase (R192; log 14). -/
theorem step_of_irqWord (hturn : nextTurn Config.params s = .irqPort w) : step s = portWord .irq w s.begun :=
  step_of_nextTurn hturn

/-! ## Table words -/

/-- A table word that decodes is one word, a command of the port of its row. -/
theorem decodeTableWord_eq_some {nbits n : Nat} {i : Instr} (h : decodeTableWord nbits n = some i) :
    ∃ word, wordOfTable nbits n = some word ∧ decode (portOfWord word) word = .cmd i := by
  unfold decodeTableWord at h
  split at h
  · cases h
  · next word hword =>
    split at h
    · next hi => exact ⟨word, hword, by rw [hi, Option.some.inj h]⟩
    · cases h

theorem withFetchWord_of_word {nbits n : Nat} (h : wordOfTable nbits n = some w) :
    s.withFetchWord nbits n = s.place w := by
  rw [State.withFetchWord, h]

theorem step_place_of_fg {i : Instr} (hport : portOfWord w = .fg) (h : decode .fg w = .cmd i) :
    step (s.place w) =
      exec i { s with ticks := s.ticks + 1, steps := s.steps + 1, phase := .idle, held := none } := by
  have hplace : s.place w = { s with turns := .host (.issue w) :: s.turns, phase := .idle, held := none } := by
    rw [State.place, hport]
  rw [hplace, step_of_hostWord rfl rfl rfl, portWord_of_cmd h]
  rfl

theorem step_place_of_irq {i : Instr} (hport : portOfWord w = .irq) (h : decode .irq w = .cmd i) :
    step (s.place w) = exec i { s with ticks := s.ticks + 1, steps := s.steps + 1 } := by
  have hplace : s.place w = { s with turns := .irqPort w :: s.turns } := by
    rw [State.place, hport]
  rw [hplace, step_of_irqWord rfl, portWord_of_cmd h]
  rfl

/-! ## The obligations -/

/-- Settles O18: the placed word is the next turn's, and its command belongs to the port it is placed at. -/
theorem placedWordRunsNext : Obligations.PlacedWordRunsNext := by
  intro s nbits n i h
  obtain ⟨word, hword, hi⟩ := decodeTableWord_eq_some h
  have hport : i.port = portOfWord word := port_of_decode hi
  refine ⟨_, ?_, rfl⟩
  rw [withFetchWord_of_word hword, hport]
  cases hfg : portOfWord word with
  | fg => exact step_place_of_fg hfg (hfg ▸ hi)
  | irq => exact step_place_of_irq hfg (hfg ▸ hi)

/-- Settles O19: the turn puts the word on its port, and the port records the fault. -/
theorem illegalWordOnlyRecordsAFault : Obligations.IllegalWordOnlyRecordsAFault := by
  intro s w why
  constructor
  · intro op hturn hword hidle hillegal
    rw [step_of_hostWord hturn hword hidle, portWord_of_illegal hillegal]
  · intro hturn hillegal
    rw [step_of_irqWord hturn, portWord_of_illegal hillegal]

end Sys2Proof.Machine
end

section
/-! PROOFS. The assembler's SENDMSG (30_encoding R110, R111). -/

namespace Sys2Proof

/-- A field's own value fits it (R110). -/
@[simp] theorem fits_toNat {n : Nat} (b : BitVec n) : fits n b.toNat = true :=
  decide_eq_true b.isLt

/-- R111: with byte operands, SENDMSG's only assembly error is a payload of more than four bytes. -/
theorem sendmsg_wf (type seq dcnt : Byte) (payload : List Byte) :
    (Asm.sendmsg type.toNat seq.toNat dcnt.toNat (payload.map BitVec.toNat)).wf = decide (payload.length ≤ 4) := by
  simp [Asm.wf]

/-- The STAGE commands from byte `k` on, by position in the payload. -/
theorem stageFrom_map_toNat (k : Nat) (payload : List Byte) :
    stageFrom k (payload.map BitVec.toNat) = payload.mapIdx fun j b => .stage (BitVec.ofNat 2 (k + j)) b := by
  induction payload generalizing k with
  | nil => rfl
  | cons b bs ih => simp [stageFrom, ih, List.mapIdx_cons, Nat.add_assoc, Nat.add_comm 1]

/-- Settles O59: the expansion follows the payload byte by byte, and its length is the only range check left. -/
theorem sendmsgExpands : Obligations.SendmsgExpands := by
  intro type seq dcnt payload
  have hwf := sendmsg_wf type seq dcnt payload
  constructor
  · intro hlen
    rw [Asm.expand, if_pos (hwf.trans (decide_eq_true hlen))]
    simp [stageFrom_map_toNat]
  · intro hlen
    rw [Asm.expand, if_neg (by simp [hwf, hlen])]

end Sys2Proof
end

section
/-! PROOFS. The commands of the FG port (40_commands R130-R136): what each does while FG is idle, and that all of them
hold while FG is busy. HOST's turn, with a command or with a write of `gie`, is taken apart in the same two cases (R139). -/

namespace Sys2Proof.Machine

variable {s t : State}

/-! ## The FG commands, idle and busy -/

theorem exec_stage_idle (h : s.phase = .idle) (idx : BitVec 2) (byte : Byte) :
    exec (.stage idx byte) s = .next { s with pay := s.pay.set idx.toNat ⟨byte, true⟩ idx.isLt } := by
  rw [exec, execStage, onFgPort_idle h]

theorem exec_setseq_idle (h : s.phase = .idle) (byte : Byte) :
    exec (.setseq byte) s = .next { s with seq := ⟨byte, true⟩ } := by
  rw [exec, execSetseq, onFgPort_idle h]

theorem exec_setdcnt_idle (h : s.phase = .idle) (byte : Byte) :
    exec (.setdcnt byte) s = .next { s with dcnt := ⟨byte, true⟩ } := by
  rw [exec, execSetdcnt, onFgPort_idle h]

theorem exec_send_idle (h : s.phase = .idle) (ty : Byte) (len : BitVec 3) :
    exec (.send ty len) s =
      .next (s.refuseOr (s.sendCheck len) (.send ty len) { s with ty := ty, len := len, phase := .poll }) := by
  rw [exec, execSend, onFgPort_idle h]

/-- R130: a busy FG port holds every command that belongs to it. -/
theorem exec_fg_busy (h : s.phase ≠ .idle) {i : Instr} (hport : i.port = .fg) : exec i s = .next s := by
  cases i with
  | send ty len => rw [exec, execSend, onFgPort_busy h]
  | stage idx byte => rw [exec, execStage, onFgPort_busy h]
  | setseq byte => rw [exec, execSetseq, onFgPort_busy h]
  | setdcnt byte => rw [exec, execSetdcnt, onFgPort_busy h]
  | reclaim slot => cases hport

/-- Everything a staging command can do: nothing while FG is busy, and its own assignment otherwise (R130, R132-R134). -/
theorem exec_staging_cases {i : Instr}
    (hi : (∃ idx b, i = .stage idx b) ∨ (∃ b, i = .setseq b) ∨ (∃ b, i = .setdcnt b)) (h : exec i s = .next t) :
    t = s ∨
      (∃ idx b, i = .stage idx b ∧ t = { s with pay := s.pay.set idx.toNat ⟨b, true⟩ idx.isLt }) ∨
      (∃ b, i = .setseq b ∧ t = { s with seq := ⟨b, true⟩ }) ∨
      (∃ b, i = .setdcnt b ∧ t = { s with dcnt := ⟨b, true⟩ }) := by
  by_cases hidle : s.phase = .idle
  · right
    obtain ⟨idx, b, rfl⟩ | ⟨b, rfl⟩ | ⟨b, rfl⟩ := hi
    · cases (exec_stage_idle hidle idx b).symm.trans h
      exact .inl ⟨idx, b, rfl, rfl⟩
    · cases (exec_setseq_idle hidle b).symm.trans h
      exact .inr (.inl ⟨b, rfl, rfl⟩)
    · cases (exec_setdcnt_idle hidle b).symm.trans h
      exact .inr (.inr ⟨b, rfl, rfl⟩)
  · have hport : i.port = .fg := by
      obtain ⟨idx, b, rfl⟩ | ⟨b, rfl⟩ | ⟨b, rfl⟩ := hi <;> rfl
    cases (exec_fg_busy hidle hport).symm.trans h
    exact .inl rfl

/-! ## SEND's acceptance check (R136) -/

/-- The payload bytes a SEND of `n` needs are staged exactly when each of them has been written. -/
theorem payStaged_iff {n : Nat} : s.payStaged n = true ↔ ∀ k : Fin 4, k.val < n → (s.pay[k]).w = true := by
  rw [State.payStaged, List.all_eq_true, List.forall_mem_iff_getElem]
  simp only [List.length_take, Vector.length_toList, List.getElem_take, Vector.getElem_toList]
  constructor
  · exact fun h k hk => h k.val (by omega)
  · exact fun h k hk => h ⟨k, by omega⟩ (by simp only; omega)

theorem sendCheck_of_long {len : BitVec 3} (h : 4 < len.toNat) : s.sendCheck len = some .errLength :=
  if_pos h

theorem sendCheck_of_unwritten_header {len : BitVec 3} (hlen : len.toNat ≤ 4)
    (h : s.seq.w = false ∨ s.dcnt.w = false) : s.sendCheck len = some .errUnstaged := by
  rw [State.sendCheck, if_neg (Nat.not_lt.mpr hlen), if_pos h]

theorem sendCheck_of_unwritten_payload {len : BitVec 3} (hlen : len.toNat ≤ 4) (hseq : s.seq.w = true)
    (hdcnt : s.dcnt.w = true) (h : s.payStaged len.toNat = false) : s.sendCheck len = some .errUnstaged := by
  rw [State.sendCheck, if_neg (Nat.not_lt.mpr hlen), if_neg (by simp [hseq, hdcnt]), if_pos h]

/-- R136, R212: a SEND that the check refuses only records its fault. -/
theorem exec_send_refused (h : s.phase = .idle) {len : BitVec 3} {code : Fault} (hcheck : s.sendCheck len = some code)
    (ty : Byte) : exec (.send ty len) s = .next (s.raise code .fg (Instr.send ty len).encode) := by
  rw [exec_send_idle h, hcheck, refuseOr_some, Instr.port]

/-! ## HOST's turn -/

/-- R130, R139: with FG idle, HOST's turn runs the operation that is first at the FG port (log 4). -/
theorem step_of_host_idle {op : HostOp} (hturn : nextTurn Config.params s = .host op) (h : s.phase = .idle) :
    step s = hostAccept (s.held.getD op) (s.begun.hold none) :=
  (step_of_nextTurn hturn).trans (if_pos h)

/-- R130, R139: with FG busy, HOST's turn leaves an operation waiting at the FG port (log 4). -/
theorem step_of_host_busy {op : HostOp} (hturn : nextTurn Config.params s = .host op) (h : s.phase ≠ .idle) :
    step s = .next { s.pop with held := some (s.held.getD op) } :=
  (step_of_nextTurn hturn).trans (if_neg h)

/-! ## The obligations -/

/-- Settles O9: the words are the commands' encodings, and an idle FG port accepts each command. -/
theorem stagingCommandsWriteTheirByte : Obligations.StagingCommandsWriteTheirByte := by
  intro idx byte s hidle
  refine ⟨decode_eq_cmd_iff.mpr ⟨rfl, rfl⟩, decode_eq_cmd_iff.mpr ⟨?_, rfl⟩, decode_eq_cmd_iff.mpr ⟨?_, rfl⟩,
    exec_stage_idle hidle idx byte, exec_setseq_idle hidle byte, exec_setdcnt_idle hidle byte⟩
  · exact congrArg (· ++ byte) (show 0x3#4 ++ 0#4 = 0b00110000#8 by decide)
  · exact congrArg (· ++ byte) (show 0x4#4 ++ 0#4 = 0b01000000#8 by decide)

/-- Settles O10: each thing a staging command can do assigns its own register and no other. -/
theorem stagingCommandsFrame : Obligations.StagingCommandsFrame := by
  intro i s t hi h
  obtain rfl | ⟨idx, b, rfl, rfl⟩ | ⟨b, rfl, rfl⟩ | ⟨b, rfl, rfl⟩ := exec_staging_cases hi h
  · simp
  · have hpay (k : Fin 4) (hk : idx.toNat ≠ k.val) : (s.pay.set idx.toNat ⟨b, true⟩ idx.isLt)[k] = s.pay[k] :=
      Vector.getElem_set_ne idx.isLt k.isLt hk
    simpa using hpay
  · simp
  · simp

/-- Settles O11: every check of R136 passes. -/
theorem sendIsAccepted : Obligations.SendIsAccepted := by
  intro ty len s hidle hlen hseq hdcnt hpay
  have hcheck : s.sendCheck len = none := sendCheck_eq_none.mpr ⟨hlen, hseq, hdcnt, payStaged_iff.mpr hpay⟩
  rw [exec_send_idle hidle, hcheck, refuseOr_none]

/-- Settles O12: each clause is the first check of R136 that fails. -/
theorem sendIsRefusedInOrder : Obligations.SendIsRefusedInOrder := by
  intro ty len s hidle
  refine ⟨fun hlen => exec_send_refused hidle (sendCheck_of_long hlen) ty,
    fun hlen hheader => exec_send_refused hidle (sendCheck_of_unwritten_header hlen hheader) ty, ?_⟩
  rintro hlen hseq hdcnt ⟨k, hk, hunwritten⟩
  have hpay : s.payStaged len.toNat = false := Bool.eq_false_iff.mpr fun hstaged =>
    Bool.false_ne_true (hunwritten.symm.trans (payStaged_iff.mp hstaged k hk))
  exact exec_send_refused hidle (sendCheck_of_unwritten_payload hlen hseq hdcnt hpay) ty

/-- Settles O16: the port holds the command, and HOST's operation waits at it. -/
theorem busyFgPortHolds : Obligations.BusyFgPortHolds := fun _ hbusy =>
  ⟨fun _ hport => exec_fg_busy hbusy hport, fun _ hturn => step_of_host_busy hturn hbusy⟩

/-- Settles O17: the turn puts the word on its port, and the port runs the command. -/
theorem stepRunsTheDecodedCommand : Obligations.StepRunsTheDecodedCommand := by
  intro s w i
  constructor
  · intro op hturn hword hidle hcmd
    rw [step_of_hostWord hturn hword hidle, portWord_of_cmd hcmd]
  · intro hturn hcmd
    rw [step_of_irqWord hturn, portWord_of_cmd hcmd]

/-- Settles O22: HOST's turn, with the write of `gie` first at the FG port. -/
theorem hostWritesGie : Obligations.HostWritesGie := by
  intro s b op hturn hop
  constructor
  · intro hidle
    rw [step_of_host_idle hturn hidle, hop]
    rfl
  · intro hbusy
    rw [step_of_host_busy hturn hbusy, hop]

end Sys2Proof.Machine
end

section
/-! PROOFS. The micro-steps of SEND, one obligation a phase or two (41_send_sequencer R150-R170): the phase picks the
micro-step, and the micro-step is its record update, the fields the spec names written out. -/

namespace Sys2Proof.Machine

variable {p : Params} {s t : State}

/-! ## The phase picks the micro-step (R150) -/

theorem fgMicro_poll (h : s.phase = .poll) : fgMicro p s = fgPoll s := by rw [fgMicro, h]
theorem fgMicro_scanPage (h : s.phase = .scanPage) : fgMicro p s = fgScanPage s := by rw [fgMicro, h]
theorem fgMicro_scanTest (h : s.phase = .scanTest) : fgMicro p s = fgScanTest s := by rw [fgMicro, h]
theorem fgMicro_clrRead (h : s.phase = .clrRead) : fgMicro p s = fgClrRead s := by rw [fgMicro, h]
theorem fgMicro_clrWrite (h : s.phase = .clrWrite) : fgMicro p s = fgClrWrite s := by rw [fgMicro, h]
theorem fgMicro_claim (h : s.phase = .claim) : fgMicro p s = fgClaim s := by rw [fgMicro, h]
theorem fgMicro_page (h : s.phase = .page) : fgMicro p s = fgPage s := by rw [fgMicro, h]
theorem fgMicro_wrid1 (h : s.phase = .wrid1) : fgMicro p s = fgWrid1 p s := by rw [fgMicro, h]
theorem fgMicro_wrid2 (h : s.phase = .wrid2) : fgMicro p s = fgWrid2 p s := by rw [fgMicro, h]
theorem fgMicro_wrid3 (h : s.phase = .wrid3) : fgMicro p s = fgWrid3 s := by rw [fgMicro, h]
theorem fgMicro_wrid4 (h : s.phase = .wrid4) : fgMicro p s = fgWrid4 s := by rw [fgMicro, h]
theorem fgMicro_wrhdr {k : Fin 4} (h : s.phase = .wrhdr k) : fgMicro p s = fgWrhdr p k s := by rw [fgMicro, h]
theorem fgMicro_wrpay {k : Fin 4} (h : s.phase = .wrpay k) : fgMicro p s = fgWrpay k s := by rw [fgMicro, h]
theorem fgMicro_enieRead (h : s.phase = .enieRead) : fgMicro p s = fgEnieRead s := by rw [fgMicro, h]
theorem fgMicro_enieWrite (h : s.phase = .enieWrite) : fgMicro p s = fgEnieWrite s := by rw [fgMicro, h]
theorem fgMicro_arm (h : s.phase = .arm) : fgMicro p s = fgArm s := by rw [fgMicro, h]
theorem fgMicro_done (h : s.phase = .done) : fgMicro p s = fgDone s := by rw [fgMicro, h]

/-! ## The values written, as the spec writes them -/

/-- R152, R160: MOBNB = q, AINC = 0 and INDX = 0 is q << 4. -/
theorem pageValue_eq_shift (q : Slot) : pageValue q = q.setWidth 8 <<< 4 := by
  revert q; decide

/-- R75: the cursor moves by one, modulo 8, unless AINC is set. -/
theorem pageAfterMsg_eq (page : Byte) :
    pageAfterMsg page = if ainc page = true then page else mobnb page ++ 0#1 ++ (indx page + 1#3) := by
  revert page; decide

/-- R168: the enable bit of a pool slot, its distance from slot 8 as a natural number. -/
theorem ieMask_of_inPool {q : Slot} (h : inPool q = true) : ieMask q = 1#8 <<< (q.toNat - 8) := by
  revert q; decide

/-- R169: the DLC is LEN + 4, which does not wrap. -/
theorem armValue_eq (len : BitVec 3) : armValue len = 0x40#8 ||| BitVec.ofNat 8 (len.toNat + 4) := by
  revert len; decide

/-- R165: the header bytes as a list. -/
theorem hdrByte_eq (k : Fin 4) : hdrByte p s k = #v[p.boardId, s.ty, s.seq.val, s.dcnt.val][k] := by
  match k with
  | 0 | 1 | 2 | 3 => rfl

/-- R165: the phase after a header byte, with R165's test of LEN. -/
theorem afterHdr_eq (len : BitVec 3) (k : Fin 4) :
    afterHdr len k = if k.val < 3 then .wrhdr (k + 1) else if 0 < len.toNat then .wrpay 0 else .enieRead := by
  revert len k; decide

/-- R166: the phase after a payload byte, for the LEN that SEND accepts. -/
theorem afterPay_eq {len : BitVec 3} (h : len.toNat ≤ 4) (k : Fin 4) :
    afterPay len k = if k.val + 1 < len.toNat then .wrpay (k + 1) else .enieRead := by
  revert len k; decide

/-! ## One micro-step each -/

/-- Settles O27: the two branches of POLL. -/
theorem pollSpinsOrStartsTheScan : Obligations.PollSpinsOrStartsTheScan := by
  intro p s hp
  rw [fgMicro_poll hp]
  exact ⟨fgPoll_zero, fgPoll_pos⟩

/-- Settles O28: both phases write `pageValue`, which is the shift. -/
theorem pageOfTheSlotIsSelected : Obligations.PageOfTheSlotIsSelected := by
  intro p s
  rw [← pageValue_eq_shift]
  exact ⟨fgMicro_scanPage, fgMicro_page⟩

/-- Settles O29: `conmob` is the field of bits 7:6. -/
theorem scanTestOutcomes : Obligations.ScanTestOutcomes := by
  intro p s hp hpage
  rw [fgMicro_scanTest hp]
  refine ⟨fgScanTest_found hpage, fgScanTest_next hpage, fun hc hs => ?_⟩
  rw [fgScanTest_exhausted hpage hc hs, raiseFg_eq]
  rfl

/-- Settles O30: a paged read without an effect, and a paged write. -/
theorem statusIsReadThenCleared : Obligations.StatusIsReadThenCleared := fun _ _ hpage =>
  ⟨fun hp => (fgMicro_clrRead hp).trans (fgClrRead_eq hpage),
    fun hp => (fgMicro_clrWrite hp).trans (fgClrWrite_eq hpage)⟩

/-- Settles O31: the two branches of CLAIM. -/
theorem claimDecrementsAndOwns : Obligations.ClaimDecrementsAndOwns := by
  intro p s hp
  rw [fgMicro_claim hp]
  refine ⟨fgClaim_pos, fun hz => ?_⟩
  rw [fgClaim_zero hz, raiseFg_eq]
  rfl

/-- Settles O32: four paged writes, one a phase. -/
theorem identifierRegistersAreWritten : Obligations.IdentifierRegistersAreWritten := fun _ _ hpage =>
  ⟨fun hp => (fgMicro_wrid1 hp).trans (fgWrid1_eq hpage), fun hp => (fgMicro_wrid2 hp).trans (fgWrid2_eq hpage),
    fun hp => (fgMicro_wrid3 hp).trans (fgWrid3_eq hpage), fun hp => (fgMicro_wrid4 hp).trans (fgWrid4_eq hpage)⟩

/-- Settles O33: a CANMSG write of the header byte. -/
theorem headerByteIsWritten : Obligations.HeaderByteIsWritten := by
  intro p s k hp hpage
  rw [fgMicro_wrhdr hp, fgWrhdr_eq hpage, hdrByte_eq, afterHdr_eq, ← pageAfterMsg_eq]
  rfl

/-- Settles O34: a CANMSG write of the payload byte. -/
theorem payloadByteIsWritten : Obligations.PayloadByteIsWritten := by
  intro p s k hp hlen hpage
  rw [fgMicro_wrpay hp, fgWrpay_eq hpage, afterPay_eq hlen, ← pageAfterMsg_eq]
  rfl

/-- Settles O35: for a pool slot, `ieMask` is the shift. -/
theorem completionInterruptIsEnabled : Obligations.CompletionInterruptIsEnabled := by
  intro p s
  refine ⟨fgMicro_enieRead, fun hp hin => ?_⟩
  rw [← ieMask_of_inPool hin]
  exact fgMicro_enieWrite hp

/-- Settles O36: `armValue` is the value R169 writes. -/
theorem armPublishesTheMailboxAndDoneReturns : Obligations.ArmPublishesTheMailboxAndDoneReturns := by
  intro p s
  refine ⟨fun hp hpage => ?_, fgMicro_done⟩
  rw [← armValue_eq]
  exact (fgMicro_arm hp).trans (fgArm_eq hpage)

end Sys2Proof.Machine
end

section
/-! PROOFS. What the cases of a micro-step and of a turn say of a SEND in progress: the order of its micro-steps
(41_send_sequencer R150), the scan that always finds a slot after a launch (R156), what the other agents leave alone (R173,
R193), and the frame it builds (R171). -/

namespace Sys2Proof.Machine

variable {p : Params} {s t : State}

/-! ## The order (R150) -/

/-- R161-R164: the identifier registers are written in order, then the header. -/
theorem IdtWrite.follows {ph n : Phase} {f : Mailbox → Mailbox} (hw : IdtWrite p ph f n) (len : BitVec 3) :
    Phase.follows len ph n = true := by
  cases hw with
  | first | second | third | fourth => rfl

/-- R165, R166: four header bytes, then exactly LEN payload bytes. -/
theorem DataWrite.follows {len : BitVec 3} {ph n : Phase} {j : Fin 8} (hl : len.toNat ≤ 4) (hw : DataWrite len ph j n) :
    Phase.follows len ph n = true := by
  cases hw with
  | hdr k => revert len k; decide
  | pay k hk => revert len k; decide

/-- A micro-step goes on to a phase that R150 lists next. -/
theorem MicroStep.follows (hm : MicroStep p s t) (h : SeqInv s) : Phase.follows s.len s.phase t.phase = true := by
  cases hm with
  | idt f n hw => exact hw.follows s.len
  | data j n hw => exact hw.follows (h.lenLe (MicroStep.data (p := p) j n hw).busy)
  | spin hp | start hp | scanPage hp | found hp | skip hp | exhausted hp | clrRead hp | clrWrite hp | claim hp
  | page hp | enieRead hp | enieWrite hp | arm hp | done hp => simp [hp, Phase.follows]

/-- Settles O39: the micro-step is one of the cases of `MicroStep`, and each keeps to the order. -/
theorem microStepsFollowTheOrder : Obligations.MicroStepsFollowTheOrder := fun _ _ h hb =>
  (fgMicro_step h hb).follows h

/-! ## Faults after a launch (R156) -/

/-- R154, R156: the scan is never exhausted, since an Idle slot lies at or after the one it tests. -/
theorem LaunchInv.not_exhausted (h : LaunchInv p s) (hp : s.phase = .scanTest)
    (hc : conmob (s.mob s.slot).cdmob ≠ 0b00#2) : s.slot.toNat ≠ 14 := by
  intro hlast
  obtain ⟨q, hq, hle, hidle⟩ := h.scan (by rw [hp]; rfl)
  have hle14 := (inPool_iff.mp hq).2
  obtain rfl : s.slot = q := BitVec.eq_of_toNat_eq (by omega)
  exact hc (slotState_eq_idle.mp hidle).1

/-- After a launch no micro-step raises a fault. -/
theorem LaunchInv.microStep_fault (h : LaunchInv p s) (hm : MicroStep p s t) : t.fault = s.fault := by
  cases hm with
  | exhausted hp hc hs => exact absurd hs (h.not_exhausted hp hc)
  | spin | start | scanPage | found | skip | clrRead | clrWrite | claim | page | idt | data | enieRead | enieWrite
  | arm | done => rfl

/-- After a launch, with no fault recorded, no turn leads to a record of ERR_NOSLOT: only FG could raise it. -/
theorem LaunchInv.effect_ne_noslot {τ : Turn} (h : LaunchInv p s) (he : Effect p τ s t) (hnone : s.fault = none)
    {r : FaultRecord} (hr : t.fault = some r) : r.code ≠ .errNoslot := by
  cases he with
  | hold | gie | stage | setseq | setdcnt | send | reclaim | transmit | init => cases hnone.symm.trans hr
  | refused c port w hc =>
    rw [raise_of_none hnone] at hr
    cases hr
    exact hc
  | micro _ hb =>
    rw [h.microStep_fault (fgMicro_step h.seq hb), hnone] at hr
    cases hr
  | reset => cases hr

/-- Settles O45: only an exhausted scan raises ERR_NOSLOT, and after a launch there is none. -/
theorem scanAlwaysFindsASlot : Obligations.ScanAlwaysFindsASlot := by
  intro s t h _ hs hnone r hr
  obtain ⟨n, o, he⟩ := stepWith_effect hs
  exact (h.rebooked s.fault o n s.turns.tail (s.ticks + 1)).effect_ne_noslot he hnone hr

/-! ## The other agents (R173, R193) -/

/-- A slot in use is not the one FG has found, whose registers stay when it is written. -/
theorem SeqInv.mob_found (h : SeqInv s) (hf : s.phase.found = true) {q : Slot} (hq : conmob (s.mob q).cdmob ≠ 0b00#2)
    (x : Mailbox) : mobAt (mobSet s.mobs q x) s.slot = s.mob s.slot := by
  refine mobAt_mobSet_ne x ?_
  rintro rfl
  exact hq (h.foundFree hf)

/-- What a SEND in progress stands on: CANPAGE, CANIE1, `s`, `claimed`, `t`, the phase and the slot found. -/
structure State.SameSend (s t : State) : Prop where
  canpage : t.canpage = s.canpage
  canie1 : t.canie1 = s.canie1
  slot : t.slot = s.slot
  claimed : t.claimed = s.claimed
  tmp : t.tmp = s.tmp
  phase : s.phase ≠ .idle → t.phase = s.phase
  mob : s.phase.found = true → t.mob s.slot = s.mob s.slot

/-- Every effect of HOST, IRQ and CTRL leaves the SEND in progress alone: they write slots in use only. -/
theorem SeqInv.effect_sameSend {τ : Turn} (h : SeqInv s) (he : Effect p τ s t) (hfg : τ ≠ .fg) (hi : τ ≠ .init)
    (hr : τ ≠ .reset) : s.SameSend t := by
  cases he with
  | hold | gie | stage | setseq | setdcnt => exact ⟨rfl, rfl, rfl, rfl, rfl, fun _ => rfl, fun _ => rfl⟩
  | refused => constructor <;> simp
  | send _ _ hidle => exact ⟨rfl, rfl, rfl, rfl, rfl, fun hb => absurd hidle hb, fun _ => rfl⟩
  | reclaim q _ hc =>
    obtain ⟨-, hused, -, -⟩ := reclaimCheck_eq_none.mp hc
    exact ⟨rfl, rfl, rfl, rfl, rfl, fun _ => rfl, fun hf => h.mob_found hf (by simp [hused]) _⟩
  | transmit q _ he =>
    obtain ⟨-, hused⟩ := txEnabled_spec he
    exact ⟨rfl, rfl, rfl, rfl, rfl, fun _ => rfl, fun hf => h.mob_found hf (by simp [hused]) _⟩
  | micro hτ => exact absurd hτ hfg
  | init _ hτ => exact absurd hτ hi
  | reset _ hτ => exact absurd hτ hr

/-- Settles O50: each effect of another agent leaves what the SEND stands on. -/
theorem otherAgentsLeaveTheSendAlone : Obligations.OtherAgentsLeaveTheSendAlone := by
  intro s t h hfg hi hr hs
  obtain ⟨n, o, he⟩ := stepWith_effect hs
  obtain ⟨hpage, hie, hslot, hclaimed, htmp, hphase, hmob⟩ := SeqInv.effect_sameSend (h.rebooked ..) he hfg hi hr
  exact ⟨hpage, hie, hslot, hclaimed, htmp, hphase, hmob⟩

/-! ## The frame (R171) -/

/-- Settles O55: each effect of a turn keeps what has been written of the frame. -/
theorem frameUnderConstructionStands : Obligations.FrameUnderConstructionStands := fun _ _ hseq h hs => h.step hseq hs

/-- Settles O56: the launch invariant, which speaks of every frame sent, holds throughout the run. -/
theorem everyFrameOnTheBusIsGood : Obligations.EveryFrameOnTheBusIsGood := by
  intro p r hr h0 hreserved hn n f hf
  obtain ⟨hid, hlength, hge, hle, hboard⟩ := (hr.launchInv hn (h0.launchInv p hreserved) n).bus f hf
  exact ⟨hid, hlength, hge, hle, hboard⟩

end Sys2Proof.Machine
end

section
/-! PROOFS. A SEND with no other agent's step in it (41_send_sequencer R155, R171, R175): POLL, the scan up to the lowest
free slot, the claim and the identifier, the data bytes, the interrupt enable and ARM, each part a run of `fgRun` from one
written-out state to the next. -/

namespace Sys2Proof.Machine

variable {p : Params} {s : State} {q : Slot}

theorem fgRun_add (m n : Nat) (s : State) : fgRun p (m + n) s = fgRun p n (fgRun p m s) := by
  induction m generalizing s with
  | zero => rw [Nat.zero_add, fgRun]
  | succ m ih => rw [Nat.succ_add, fgRun, fgRun, ih]

/-! ## The scan (R152, R153) -/

/-- `s` with FG at slot `q`, CANPAGE at `page`, in phase `ph`. -/
def State.atSlot (s : State) (q : Slot) (page : Byte) (ph : Phase) : State :=
  { s with slot := q, canpage := page, phase := ph }

theorem fgMicro_atSlot_scanPage (page : Byte) :
    fgMicro p (s.atSlot q page .scanPage) = s.atSlot q (pageValue q) .scanTest := rfl

theorem fgMicro_atSlot_free (hq : q ≠ 15#4) (hfree : conmob (s.mob q).cdmob = 0b00#2) :
    fgMicro p (s.atSlot q (pageValue q) .scanTest) = s.atSlot q (pageValue q) .clrRead := by
  have hpage : mobnb (s.atSlot q (pageValue q) .scanTest).canpage = q := mobnb_pageValue q
  rw [fgMicro_scanTest rfl, fgScanTest_found (by rwa [hpage]) (by rw [hpage]; exact hfree)]
  rfl

theorem fgMicro_atSlot_used (hq : q.toNat < 14) (hused : conmob (s.mob q).cdmob ≠ 0b00#2) :
    fgMicro p (s.atSlot q (pageValue q) .scanTest) = s.atSlot (q + 1#4) (pageValue q) .scanPage := by
  have hpage : mobnb (s.atSlot q (pageValue q) .scanTest).canpage = q := mobnb_pageValue q
  have hne : q ≠ 15#4 := by rintro rfl; simp at hq
  rw [fgMicro_scanTest rfl, fgScanTest_next (by rwa [hpage]) (by rw [hpage]; exact hused) hq]
  rfl

/-- R155: from a slot `n` below the lowest free one, the scan finds that one in two micro-steps a slot. -/
theorem fgRun_scan (hq : inPool q = true) (hfree : conmob (s.mob q).cdmob = 0b00#2)
    (hused : ∀ a, inPool a = true → a.toNat < q.toNat → conmob (s.mob a).cdmob ≠ 0b00#2) (n : Nat) {a : Slot}
    (ha : 8 ≤ a.toNat) (hn : a.toNat + n = q.toNat) (page : Byte) :
    fgRun p (2 * n + 2) (s.atSlot a page .scanPage) = s.atSlot q (pageValue q) .clrRead := by
  have hle := (inPool_iff.mp hq).2
  induction n generalizing a page with
  | zero =>
    obtain rfl : a = q := BitVec.eq_of_toNat_eq hn
    rw [fgRun, fgMicro_atSlot_scanPage, fgRun, fgMicro_atSlot_free (inPool_ne_absent hq) hfree, fgRun]
  | succ n ih =>
    have hin : inPool a = true := inPool_iff.mpr (by omega)
    have hnext : (a + 1#4).toNat = a.toNat + 1 := by bv_omega
    rw [show 2 * (n + 1) + 2 = 2 * n + 2 + 1 + 1 by omega, fgRun, fgMicro_atSlot_scanPage, fgRun,
      fgMicro_atSlot_used (by omega) (hused a hin (by omega)), ih (by omega) (by omega)]

/-! ## The micro-steps of the slot found -/

theorem setMob_setMob (x y : Mailbox) : (s.setMob q x).setMob q y = s.setMob q y := by
  simp only [State.setMob, mobSet_mobSet]

theorem setMob_mob : s.setMob q (s.mob q) = s := by
  simp only [State.setMob, mob_eq, mobSet_mobAt]

/-- `s` with FG at slot `q`, whose mailbox holds `x`. -/
def State.filling (s : State) (q : Slot) (page : Byte) (x : Mailbox) (ph : Phase) : State :=
  (s.atSlot q page ph).setMob q x

/-- `s` after CLAIM has taken slot `q` (R159). -/
def State.owning (s : State) (q : Slot) : State :=
  { s with freeCount := s.freeCount - 1#8, claimed := some q }

/-- WRID1 to WRID4, with a page that selects a mailbox. -/
theorem fgMicro_idt {f : Mailbox → Mailbox} {n : Phase} (hw : IdtWrite p s.phase f n)
    (hpage : mobnb s.canpage ≠ 15#4) : fgMicro p s = (s.updMob (mobnb s.canpage) f).goto n := by
  generalize hp : s.phase = ph at hw
  cases hw with
  | first => exact (fgMicro_wrid1 hp).trans (fgWrid1_eq hpage)
  | second => exact (fgMicro_wrid2 hp).trans (fgWrid2_eq hpage)
  | third => exact (fgMicro_wrid3 hp).trans (fgWrid3_eq hpage)
  | fourth => exact (fgMicro_wrid4 hp).trans (fgWrid4_eq hpage)

/-- WRHDR(k) and WRPAY(k), with a page that selects a mailbox. -/
theorem fgMicro_data {j : Fin 8} {n : Phase} (hw : DataWrite s.len s.phase j n) (hpage : mobnb s.canpage ≠ 15#4) :
    fgMicro p s =
      (s.updMob (mobnb s.canpage) fun x => setMsg x (indx s.canpage) (frameByte p s j)).afterMsg.goto n := by
  generalize hp : s.phase = ph at hw
  cases hw with
  | hdr k => rw [fgMicro_wrhdr hp, fgWrhdr_eq hpage, frameByte_hdr]
  | pay k hk => rw [fgMicro_wrpay hp, fgWrpay_eq hpage, frameByte_pay]

section Filling
variable {page : Byte} (hq : q ≠ 15#4) (hpage : mobnb page = q) (x : Mailbox)
include hq hpage

theorem filling_page_ne_absent (ph : Phase) : mobnb (s.filling q page x ph).canpage ≠ 15#4 := by
  rw [State.filling, setMob_canpage, State.atSlot, hpage]
  exact hq

/-- A write to the selected mailbox is a write to the slot's. -/
theorem filling_updMob (ph : Phase) (f : Mailbox → Mailbox) :
    (s.filling q page x ph).updMob (mobnb (s.filling q page x ph).canpage) f = s.filling q page (f x) ph := by
  have hsel : mobnb (s.filling q page x ph).canpage = q := hpage
  have hmob : (s.filling q page x ph).mob q = x := mobAt_mobSet_self x hq
  rw [hsel, State.updMob, hmob, State.filling, setMob_setMob, State.filling]

theorem fgMicro_filling_clrRead :
    fgMicro p (s.filling q page x .clrRead) = s.filling q page x .clrWrite :=
  (fgMicro_clrRead rfl).trans (fgClrRead_eq (filling_page_ne_absent hq hpage x _))

theorem fgMicro_filling_clrWrite :
    fgMicro p (s.filling q page x .clrWrite) = s.filling q page { x with stmob := 0x00#8 } .claim := by
  rw [fgMicro_clrWrite rfl, fgClrWrite_eq (filling_page_ne_absent hq hpage x _), filling_updMob hq hpage]
  rfl

theorem fgMicro_filling_idt {ph n : Phase} {f : Mailbox → Mailbox} (hw : IdtWrite p ph f n) :
    fgMicro p (s.filling q page x ph) = s.filling q page (f x) n := by
  rw [fgMicro_idt hw (filling_page_ne_absent hq hpage x _), filling_updMob hq hpage]
  rfl

theorem fgMicro_filling_data {ph n : Phase} {j : Fin 8} (hw : DataWrite s.len ph j n) :
    fgMicro p (s.filling q page x ph) =
      s.filling q (pageAfterMsg page) (setMsg x (indx page) (frameByte p s j)) n := by
  rw [fgMicro_data hw (filling_page_ne_absent hq hpage x _), filling_updMob hq hpage]
  rfl

theorem fgMicro_filling_arm :
    fgMicro p (s.filling q page x .arm) =
      s.disown.filling q page { x with cdmob := armValue s.len } .done := by
  rw [fgMicro_arm rfl, fgArm_eq (filling_page_ne_absent hq hpage x _), filling_updMob hq hpage]
  rfl

end Filling

theorem fgMicro_filling_claim (hcount : s.freeCount ≠ 0#8) (page : Byte) (x : Mailbox) :
    fgMicro p (s.filling q page x .claim) = (s.owning q).filling q page x .page :=
  fgClaim_pos hcount

theorem fgMicro_filling_page (page : Byte) (x : Mailbox) :
    fgMicro p (s.filling q page x .page) = s.filling q (pageValue q) x .wrid1 := rfl

/-! ## The data bytes (R165, R166) -/

/-- The mailbox with its status cleared, the identifier and the first `j` data bytes of the SEND's frame written. -/
def partlyFramed (p : Params) (s : State) (j : Nat) (x : Mailbox) : Mailbox :=
  { stmob := 0x00#8, cdmob := x.cdmob, idt1 := idt1Value p.bootCanId, idt2 := idt2Value p.bootCanId, idt3 := 0x00#8,
    idt4 := 0x00#8, msg := Vector.ofFn fun i : Fin 8 => if i.val < j then frameByte p s i else x.msg[i] }

/-- Before the first data byte the message is the old one. -/
theorem partlyFramed_zero (x : Mailbox) :
    partlyFramed p s 0 x = { x with stmob := 0x00#8, idt1 := idt1Value p.bootCanId, idt2 := idt2Value p.bootCanId,
                                    idt3 := 0x00#8, idt4 := 0x00#8 } := by
  have hmsg : (Vector.ofFn fun i : Fin 8 => if i.val < 0 then frameByte p s i else x.msg[i]) = x.msg := by
    ext i hi
    simp
  rw [partlyFramed, hmsg]

/-- A byte written at the cursor is the next byte of the frame. -/
theorem setMsg_partlyFramed (x : Mailbox) (j : Fin 8) {i : BitVec 3} (hi : i.toNat = j.val) :
    setMsg (partlyFramed p s j.val x) i (frameByte p s j) = partlyFramed p s (j.val + 1) x := by
  have hmsg : (partlyFramed p s j.val x).msg.set i.toNat (frameByte p s j) i.isLt
      = (partlyFramed p s (j.val + 1) x).msg := by
    apply Vector.ext
    intro k hk
    simp only [partlyFramed, Vector.getElem_set, Vector.getElem_ofFn, hi]
    by_cases e : j.val = k
    · subst e
      simp
    · have hlt : k < j.val + 1 ↔ k < j.val := by omega
      simp only [e, hlt, if_false]
  rw [setMsg, hmsg]
  rfl

/-- The phase in which data byte `j` of a SEND of `len` payload bytes is written; ENIE_READ after the last. -/
def dataPhase (len : BitVec 3) (j : Nat) : Phase :=
  if h : j < 4 then .wrhdr ⟨j, h⟩
  else if h : j < 4 + len.toNat ∧ j < 8 then .wrpay ⟨j - 4, by omega⟩
  else .enieRead

theorem afterHdr_eq_dataPhase {len : BitVec 3} (hl : len.toNat ≤ 4) (k : Fin 4) :
    afterHdr len k = dataPhase len (k.val + 1) := by
  revert len k; decide

theorem afterPay_eq_dataPhase {len : BitVec 3} (hl : len.toNat ≤ 4) {k : Fin 4} (hk : k.val < len.toNat) :
    afterPay len k = dataPhase len (4 + k.val + 1) := by
  revert len k; decide

theorem dataPhase_pay {len : BitVec 3} {k : Fin 4} (hk : k.val < len.toNat) :
    dataPhase len (4 + k.val) = .wrpay k := by
  revert len k; decide

theorem dataPhase_last {len : BitVec 3} (hl : len.toNat ≤ 4) : dataPhase len (4 + len.toNat) = .enieRead := by
  revert len; decide

/-- The micro-step of `dataPhase len j` writes byte `j` and goes on to the next byte's. -/
theorem dataWrite_dataPhase {len : BitVec 3} (hl : len.toNat ≤ 4) {j : Nat} (hj : j < 4 + len.toNat) :
    DataWrite len (dataPhase len j) ⟨j, by omega⟩ (dataPhase len (j + 1)) := by
  by_cases h4 : j < 4
  · have hw := DataWrite.hdr (len := len) ⟨j, h4⟩
    rw [afterHdr_eq_dataPhase hl] at hw
    rwa [show dataPhase len j = .wrhdr ⟨j, h4⟩ from dif_pos h4]
  · obtain ⟨k, rfl⟩ := Nat.exists_eq_add_of_le (Nat.not_lt.mp h4)
    have hk : k < len.toNat := by omega
    have hw := DataWrite.pay (len := len) ⟨k, by omega⟩ hk
    rw [afterPay_eq_dataPhase hl hk] at hw
    rwa [dataPhase_pay (k := ⟨k, by omega⟩) hk]

/-- CANPAGE once `j` data bytes of slot `q` have been written (R75). -/
def dataPage (q : Slot) (j : Nat) : Byte := q ++ 0#1 ++ BitVec.ofNat 3 j

theorem mobnb_dataPage (j : Nat) : mobnb (dataPage q j) = q := by
  unfold dataPage
  generalize BitVec.ofNat 3 j = i
  revert q i; decide

theorem indx_dataPage (j : Fin 8) : (indx (dataPage q j.val)).toNat = j.val := by
  revert q j; decide

theorem pageAfterMsg_dataPage (j : Nat) : pageAfterMsg (dataPage q j) = dataPage q (j + 1) := by
  unfold dataPage
  rw [BitVec.ofNat_add]
  generalize BitVec.ofNat 3 j = i
  revert q i; decide

theorem pageValue_eq_dataPage (q : Slot) : pageValue q = dataPage q 0 := by
  revert q; decide

theorem dataPage_last (q : Slot) (len : BitVec 3) : dataPage q (4 + len.toNat) = q ++ 0#1 ++ (len + 4#3) := by
  revert q len; decide

/-- `s` with FG at slot `q`, whose mailbox held `x` before the SEND, after `j` data bytes. -/
def State.framing (s : State) (p : Params) (q : Slot) (x : Mailbox) (j : Nat) : State :=
  s.filling q (dataPage q j) (partlyFramed p s j x) (dataPhase s.len j)

theorem fgMicro_framing (hq : q ≠ 15#4) (hl : s.len.toNat ≤ 4) (x : Mailbox) {j : Nat} (hj : j < 4 + s.len.toNat) :
    fgMicro p (s.framing p q x j) = s.framing p q x (j + 1) := by
  have hbyte := setMsg_partlyFramed (p := p) (s := s) x ⟨j, by omega⟩ (indx_dataPage (q := q) _)
  rw [State.framing, fgMicro_filling_data hq (mobnb_dataPage j) _ (dataWrite_dataPhase hl hj), hbyte,
    pageAfterMsg_dataPage, State.framing]

/-- The bytes still to be written take one micro-step each. -/
theorem fgRun_framing (hq : q ≠ 15#4) (hl : s.len.toNat ≤ 4) (x : Mailbox) (n : Nat) {j : Nat}
    (hn : j + n = 4 + s.len.toNat) : fgRun p n (s.framing p q x j) = s.framing p q x (4 + s.len.toNat) := by
  induction n generalizing j with
  | zero => rw [fgRun, ← hn, Nat.add_zero]
  | succ n ih => rw [fgRun, fgMicro_framing hq hl x (by omega), ih (by omega)]

/-! ## The parts of the run -/

/-- POLL with a counter that is not 0 starts the scan at slot 8. -/
theorem fgRun_poll (hp : s.phase = .poll) (hcount : s.freeCount ≠ 0#8) :
    fgRun p 1 s = s.atSlot 8#4 s.canpage .scanPage := by
  rw [fgRun, fgMicro_poll hp, fgPoll_pos hcount, fgRun]
  rfl

/-- CLR_READ to WRID4: the slot is claimed and holds the identifier, with no data byte written. -/
theorem fgRun_identifier (hq : q ≠ 15#4) (hcount : s.freeCount ≠ 0#8) :
    fgRun p 8 (s.atSlot q (pageValue q) .clrRead) = (s.owning q).framing p q (s.mob q) 0 := by
  have hpage := mobnb_pageValue q
  have hstart : s.atSlot q (pageValue q) .clrRead = s.filling q (pageValue q) (s.mob q) .clrRead := setMob_mob.symm
  have hend : (s.owning q).framing p q (s.mob q) 0 =
      (s.owning q).filling q (pageValue q) (partlyFramed p (s.owning q) 0 (s.mob q)) (.wrhdr 0) := by
    rw [pageValue_eq_dataPage]
    rfl
  rw [hstart, hend, partlyFramed_zero,
    fgRun, fgMicro_filling_clrRead hq hpage, fgRun, fgMicro_filling_clrWrite hq hpage,
    fgRun, fgMicro_filling_claim hcount, fgRun, fgMicro_filling_page,
    fgRun, fgMicro_filling_idt hq hpage _ .first, fgRun, fgMicro_filling_idt hq hpage _ .second,
    fgRun, fgMicro_filling_idt hq hpage _ .third, fgRun, fgMicro_filling_idt hq hpage _ .fourth, fgRun]

/-- `s` with slot `q`'s completion interrupt enabled (R167, R168). -/
def State.enabled (s : State) (q : Slot) : State :=
  { s with tmp := s.canie1 &&& 0x7F#8, canie1 := ((s.canie1 &&& 0x7F#8) ||| ieMask q) &&& 0x7F#8 }

/-- ENIE_READ and ENIE_WRITE. -/
theorem fgRun_enable (page : Byte) (x : Mailbox) :
    fgRun p 2 (s.filling q page x .enieRead) = (s.enabled q).filling q page x .arm := rfl

/-- ARM and DONE. -/
theorem fgRun_arm (hq : q ≠ 15#4) {page : Byte} (hpage : mobnb page = q) (x : Mailbox) :
    fgRun p 2 (s.filling q page x .arm) = s.disown.filling q page { x with cdmob := armValue s.len } .idle := by
  rw [fgRun, fgMicro_filling_arm hq hpage]
  rfl

/-- With all bytes written, four micro-steps enable the slot's interrupt and arm it. -/
theorem fgRun_finish (hq : q ≠ 15#4) (hl : s.len.toNat ≤ 4) (x : Mailbox) :
    fgRun p 4 (s.framing p q x (4 + s.len.toNat)) =
      (s.enabled q).disown.filling q (q ++ 0#1 ++ (s.len + 4#3)) (framedMailbox p s x) .idle := by
  rw [State.framing, dataPhase_last hl, fgRun_add 2 2, fgRun_enable, fgRun_arm hq (mobnb_dataPage _),
    dataPage_last]
  rfl

/-- Settles O54: POLL, the scan, the claim and the identifier, the data bytes and ARM, one after another. -/
theorem sendArmsTheLowestFreeSlot : Obligations.SendArmsTheLowestFreeSlot := by
  intro p s q hp hcount hl hin hfree hused
  have hq := inPool_ne_absent hin
  have hge := (inPool_iff.mp hin).1
  have hscan := fgRun_scan (p := p) hin hfree hused (q.toNat - 8) (a := 8#4) le_rfl (by simp; omega) s.canpage
  have hdata := fgRun_framing (p := p) (s := s.owning q) hq hl (s.mob q) (4 + s.len.toNat) (Nat.zero_add _)
  have hparts : 2 * (q.toNat - 7) + 17 + s.len.toNat =
      1 + ((2 * (q.toNat - 8) + 2) + (8 + ((4 + s.len.toNat) + 4))) := by omega
  rw [hparts, fgRun_add 1, fgRun_poll hp hcount, fgRun_add (2 * _ + 2), hscan, fgRun_add 8,
    fgRun_identifier hq hcount, fgRun_add (4 + _), hdata]
  exact fgRun_finish (s := s.owning q) hq hl (s.mob q)

end Sys2Proof.Machine
end

section
/-! PROOFS. The handler's RECLAIM and CTRL's transmission (42_reclaim R190-R192, R195, R198): RECLAIM accepted and refused,
in which states IRQ and CTRL have a step for a slot, and what that step does. -/

namespace Sys2Proof.Machine

variable {s : State} {q : Slot}

/-! ## RECLAIM (R190, R191) -/

/-- RECLAIM releases its slot unless R191's check refuses it. -/
theorem exec_reclaim (q : Slot) (s : State) :
    exec (.reclaim q) s = .next (s.refuseOr (s.reclaimCheck q) (.reclaim q) (s.release q)) :=
  rfl

theorem exec_reclaim_accepted (h : s.reclaimCheck q = none) : exec (.reclaim q) s = .next (s.release q) := by
  rw [exec_reclaim, h, refuseOr_none]

/-- R191, R212: a RECLAIM that the check refuses only records its fault. -/
theorem exec_reclaim_refused {code : Fault} (h : s.reclaimCheck q = some code) :
    exec (.reclaim q) s = .next (s.raise code .irq (Instr.reclaim q).encode) := by
  rw [exec_reclaim, h, refuseOr_some, Instr.port]

theorem reclaimCheck_of_outside_pool (h : inPool q = false) : s.reclaimCheck q = some .errSlot :=
  if_pos h

theorem reclaimCheck_of_not_completed (hin : inPool q = true)
    (h : conmob (s.mob q).cdmob ≠ 0b01#2 ∨ txok (s.mob q).stmob = false) : s.reclaimCheck q = some .errSlot := by
  rw [State.reclaimCheck, if_neg (by simp [hin]), if_pos h]

theorem reclaimCheck_of_full (hin : inPool q = true) (hused : conmob (s.mob q).cdmob = 0b01#2)
    (hsent : txok (s.mob q).stmob = true) (hfull : s.freeCount = 7#8) : s.reclaimCheck q = some .errOverflow := by
  rw [State.reclaimCheck, if_neg (by simp [hin]), if_neg (by simp only [hused, hsent]; simp), if_pos hfull]

/-! ## The enabling conditions of IRQ and CTRL (R192, R195) -/

theorem irqEnabled_iff : s.irqEnabled q = true ↔
    s.gie = true ∧ inPool q = true ∧ txok (s.mob q).stmob = true ∧ ieBit s.canie1 q = true := by
  simp only [State.irqEnabled, State.pending, Bool.and_eq_true, and_assoc]

theorem txEnabled_iff : s.txEnabled q = true ↔
    inPool q = true ∧ conmob (s.mob q).cdmob = 0b01#2 ∧ txok (s.mob q).stmob = false ∧
      ide (s.mob q).cdmob = false ∧ rtrtag (s.mob q).idt4 = false := by
  simp only [State.txEnabled, State.armed, Bool.and_eq_true, beq_iff_eq, Bool.not_eq_true', and_assoc]

/-! ## The turns of IRQ and CTRL -/

/-- R192: IRQ's turn for a slot it may serve runs RECLAIM of that slot. -/
theorem step_of_irq_enabled (hturn : nextTurn Config.params s = .irq q) (h : s.irqEnabled q = true) :
    step s = exec (.reclaim q) s.begun :=
  calc step s
    _ = irqTurn q s.pop := step_of_nextTurn hturn
    _ = portWord .irq (Instr.reclaim q).encode s.begun := if_pos h
    _ = exec (.reclaim q) s.begun := portWord_reclaim q s.begun

/-- R192: IRQ holds in its turn for any other slot. -/
theorem step_of_irq_disabled (hturn : nextTurn Config.params s = .irq q) (h : ¬ s.irqEnabled q = true) :
    step s = .next s.pop :=
  (step_of_nextTurn hturn).trans (if_neg h)

/-- R195: CTRL's turn for a slot it may transmit is TX of that slot. -/
theorem step_of_ctrl_enabled (hturn : nextTurn Config.params s = .ctrl q) (h : s.txEnabled q = true) :
    step s = .next (s.begun.transmit q) :=
  (step_of_nextTurn hturn).trans (if_pos h)

/-- R195: CTRL holds in its turn for any other slot. -/
theorem step_of_ctrl_disabled (hturn : nextTurn Config.params s = .ctrl q) (h : ¬ s.txEnabled q = true) :
    step s = .next s.pop :=
  (step_of_nextTurn hturn).trans (if_neg h)

/-! ## The obligations -/

/-- Settles O13: every check of R191 passes, and the release writes one mailbox and the counter. -/
theorem reclaimReleasesTheSlot : Obligations.ReclaimReleasesTheSlot := by
  intro q s hin hused hsent hcount
  have hword : (Instr.reclaim q).encode = 0b100000000000#12 ++ q :=
    congrArg (· ++ q) (show 0x8#4 ++ 0#8 = 0b100000000000#12 by decide)
  have hcheck : s.reclaimCheck q = none := reclaimCheck_eq_none.mpr ⟨hin, hused, hsent, hcount⟩
  exact ⟨decode_eq_cmd_iff.mpr ⟨hword, rfl⟩, s.release q, exec_reclaim_accepted hcheck, rfl,
    mobAt_mobSet_self _ (inPool_ne_absent hin), fun _ hr => mobAt_mobSet_ne _ hr⟩

/-- Settles O14: each clause is the first check of R191 that fails. -/
theorem reclaimIsRefusedInOrder : Obligations.ReclaimIsRefusedInOrder := by
  intro q s
  refine ⟨fun hout => ?_, fun hin hstate => exec_reclaim_refused (reclaimCheck_of_not_completed hin hstate),
    fun hin hused hsent hfull => exec_reclaim_refused (reclaimCheck_of_full hin hused hsent hfull)⟩
  have hpool : inPool q = false := Bool.eq_false_iff.mpr fun hin => by
    have hrange := inPool_iff.mp hin
    omega
  exact exec_reclaim_refused (reclaimCheck_of_outside_pool hpool)

/-- Settles O23: the condition is the IRQ agent's enabling condition. -/
theorem irqServesOnlyPendingSlots : Obligations.IrqServesOnlyPendingSlots := fun _ _ hturn =>
  ⟨fun h => step_of_irq_enabled hturn (irqEnabled_iff.mpr h),
    fun h => step_of_irq_disabled hturn fun he => h (irqEnabled_iff.mp he)⟩

/-- Settles O24: the slot is one CTRL may transmit, and TX writes one mailbox and the bus. -/
theorem transmitSendsTheFrame : Obligations.TransmitSendsTheFrame := by
  intro s q hturn hin hused hsent hide hrtr
  exact ⟨s.begun.transmit q, step_of_ctrl_enabled hturn (txEnabled_iff.mpr ⟨hin, hused, hsent, hide, hrtr⟩), rfl,
    mobAt_mobSet_self _ (inPool_ne_absent hin), fun _ hr => mobAt_mobSet_ne _ hr⟩

/-- Settles O25: each disjunct contradicts one part of CTRL's enabling condition. -/
theorem transmitHoldsOtherwise : Obligations.TransmitHoldsOtherwise := by
  intro s q hturn hwhy
  refine step_of_ctrl_disabled hturn fun he => ?_
  obtain ⟨hin, hused, hsent, hide, hrtr⟩ := txEnabled_iff.mp he
  obtain h | h | h | h | h := hwhy
  · simp [h] at hin
  · exact h hused
  · simp [h] at hsent
  · simp [h] at hide
  · simp [h] at hrtr

end Sys2Proof.Machine
end

section
/-! PROOFS. The life cycle of a pool slot (42_reclaim R199): the four moves of the cycle with the turn that makes each, and
that every effect of a turn is one of them or leaves the slot's logical state (10_state R40) as it is. -/

namespace Sys2Proof.Machine

variable {p : Params} {s t : State} {q : Slot} {τ : Turn}

/-! ## The logical states (R40) -/

/-- A disabled slot is Claimed or Idle, whatever its other registers hold. -/
theorem slotState_of_disabled (h : conmob (s.mob q).cdmob = 0b00#2) :
    s.slotState q = if s.claimed = some q then .claimed else .idle := by
  simp only [State.slotState, slotStateOf, h, beq_iff_eq]
  simp

/-- An armed slot is Completed or InFlight, whatever `claimed` is. -/
theorem slotState_of_armed (h : conmob (s.mob q).cdmob = 0b01#2) :
    s.slotState q = if txok (s.mob q).stmob = true then .completed else .inFlight := by
  simp only [State.slotState, slotStateOf, h, if_true]

/-! ## The moves (R199) -/

/-- The moves of the cycle, each with the turn that makes it, and a slot that does not move. -/
inductive SlotMove (q : Slot) (τ : Turn) : SlotState → SlotState → Prop
  | stay (a : SlotState) : SlotMove q τ a a
  /-- CLAIM (R159). -/
  | claim (hτ : τ = .fg) : SlotMove q τ .idle .claimed
  /-- ARM (R169). -/
  | arm (hτ : τ = .fg) : SlotMove q τ .claimed .inFlight
  /-- TX (R195). -/
  | transmit (hτ : τ = .ctrl q) : SlotMove q τ .inFlight .completed
  /-- RECLAIM, issued by the IRQ agent or fed to the IRQ port (R190, R192). -/
  | reclaim (hτ : τ = .irq q ∨ ∃ w, τ = .irqPort w ∧ decode .irq w = .cmd (.reclaim q)) :
      SlotMove q τ .completed .idle

theorem SlotMove.of_eq {a b : SlotState} (h : b = a) : SlotMove q τ a b :=
  h ▸ .stay b

theorem SlotMove.along_lifeCycle {a b : SlotState} (h : SlotMove q τ a b) : lifeCycle a b = true := by
  cases h with
  | stay => cases a <;> rfl
  | claim | arm | transmit | reclaim => rfl

/-- Each move out of a state is made by the agent R199 names. -/
theorem SlotMove.made_by_mover {a b : SlotState} (h : SlotMove q τ a b) (hne : b ≠ a) : mover q a τ = true := by
  cases h with
  | stay => exact absurd rfl hne
  | claim hτ | arm hτ => rw [hτ]; rfl
  | transmit hτ => simp [hτ, mover]
  | reclaim hτ =>
    obtain rfl | ⟨w, rfl, hw⟩ := hτ
    · simp [mover]
    · simp [mover, hw]

/-! ## The micro-steps -/

/-- CLAIM and ARM move the mark of the slot register alone, so a micro-step leaves every other slot's logical state. -/
theorem MicroStep.slotState_of_ne_slot (hm : MicroStep p s t) (h : SeqInv s) (hq : q ≠ s.slot) :
    t.slotState q = s.slotState q := by
  have hmark : (t.claimed == some q) = (s.claimed == some q) := by
    cases hm with
    | claim hp => simp [h.claimed_none (by rw [hp]; rfl), hq.symm]
    | arm hp => simp [h.claimed_some (by rw [hp]; rfl), hq.symm]
    | exhausted => simp
    | spin | start | scanPage | found | skip | clrRead | clrWrite | page | idt | data | enieRead | enieWrite | done => rfl
  rw [State.slotState, State.slotState, hm.mob_of_ne_slot hq, hmark]

/-- R158, R161-R166: a write to the found slot's mailbox that keeps its control register keeps its logical state. -/
theorem SeqInv.slotState_found_write (h : SeqInv s) (hf : s.phase.found = true) {x : Mailbox}
    (hmobs : t.mobs = mobSet s.mobs s.slot x) (hx : x.cdmob = (s.mob s.slot).cdmob) (hc : t.claimed = s.claimed) :
    t.slotState s.slot = s.slotState s.slot := by
  have hself : t.mob s.slot = x := by
    rw [mob_eq, hmobs, mobAt_mobSet_self x (inPool_ne_absent (h.inPool_of_found hf))]
  have hfree := h.foundFree hf
  rw [slotState_of_disabled hfree, slotState_of_disabled (by rw [hself, hx, hfree]), hc]

/-- R159: CLAIM takes the found slot, Idle until then. -/
theorem SeqInv.claim_move (h : SeqInv s) (hp : s.phase = .claim) (hm : t.mob s.slot = s.mob s.slot)
    (hc : t.claimed = some s.slot) : SlotMove s.slot .fg (s.slotState s.slot) (t.slotState s.slot) := by
  have hfree := h.foundFree (by rw [hp]; rfl)
  have hnone := h.claimed_none (by rw [hp]; rfl)
  rw [slotState_of_disabled hfree, slotState_of_disabled (by rw [hm, hfree]), hnone, hc, if_neg nofun, if_pos rfl]
  exact .claim rfl

/-- R169: ARM publishes the Claimed slot, its TXOK clear since CLR_WRITE. -/
theorem SeqInv.arm_move (h : SeqInv s) (hp : s.phase = .arm)
    (hm : t.mob s.slot = { s.mob s.slot with cdmob := armValue s.len }) :
    SlotMove s.slot .fg (s.slotState s.slot) (t.slotState s.slot) := by
  have hfree := h.foundFree (by rw [hp]; rfl)
  have hmine := h.claimed_some (by rw [hp]; rfl)
  have hclear := h.foundClear (by rw [hp]; rfl)
  obtain ⟨hused, -, -⟩ := armValue_fields (h.lenLe (by simp [hp]))
  rw [slotState_of_disabled hfree, if_pos hmine, slotState_of_armed (by rw [hm, hused]), hm,
    if_neg (by rw [hclear]; decide)]
  exact .arm rfl

/-- FG moves a slot only by CLAIM and ARM. -/
theorem MicroStep.slotMove (hm : MicroStep p s t) (h : SeqInv s) (q : Slot) :
    SlotMove q .fg (s.slotState q) (t.slotState q) := by
  by_cases hq : q = s.slot
  · subst hq
    cases hm with
    | spin | start | scanPage | found | skip | clrRead | page | enieRead | enieWrite | done => exact .stay _
    | exhausted => exact .of_eq (slotState_congr (by simp) (by simp))
    | clrWrite hp => exact .of_eq (h.slotState_found_write (by rw [hp]; rfl) rfl rfl rfl)
    | idt f n hw =>
      obtain ⟨⟨howned, -, -⟩, -, hkept⟩ := hw.spec
      exact .of_eq (h.slotState_found_write (Phase.found_of_owned howned) rfl (hkept _).1 rfl)
    | data j n hw =>
      obtain ⟨⟨howned, -, -⟩, -⟩ := hw.spec (h.lenLe (MicroStep.data (p := p) j n hw).busy)
      exact .of_eq (h.slotState_found_write (Phase.found_of_owned howned) rfl rfl rfl)
    | claim hp => exact h.claim_move hp rfl rfl
    | arm hp =>
      have hin := h.inPool_of_found (by rw [hp]; rfl)
      exact h.arm_move hp (mobAt_mobSet_self _ (inPool_ne_absent hin))
  · exact .of_eq (hm.slotState_of_ne_slot h hq)

/-! ## The other agents -/

/-- R190, R191: an accepted RECLAIM idles its slot, which was Completed. -/
theorem SeqInv.release_move (h : SeqInv s) (hc : s.reclaimCheck q = none)
    (hτ : τ = .irq q ∨ ∃ w, τ = .irqPort w ∧ decode .irq w = .cmd (.reclaim q)) :
    SlotMove q τ (s.slotState q) ((s.release q).slotState q) := by
  obtain ⟨hin, hused, hsent, -⟩ := reclaimCheck_eq_none.mp hc
  have hmine : (s.release q).claimed ≠ some q := by
    intro e
    obtain ⟨hfree, -, -, -⟩ := h.of_claimed e
    exact absurd (hfree.symm.trans hused) (by decide)
  have hfree : conmob ((s.release q).mob q).cdmob = 0b00#2 := by simp [mobAt_mobSet_self _ (inPool_ne_absent hin)]
  rw [slotState_of_armed hused, if_pos hsent, slotState_of_disabled hfree, if_neg hmine]
  exact .reclaim hτ

/-- R195: TX completes its slot, which was InFlight. -/
theorem transmit_move (he : s.txEnabled q = true) (hτ : τ = .ctrl q) :
    SlotMove q τ (s.slotState q) ((s.transmit q).slotState q) := by
  obtain ⟨hin, hused, hunsent, -, -⟩ := txEnabled_iff.mp he
  have hself : (s.transmit q).mob q = { s.mob q with stmob := setTxok (s.mob q).stmob } :=
    mobAt_mobSet_self _ (inPool_ne_absent hin)
  have hsent : txok ((s.transmit q).mob q).stmob = true := by rw [hself, txok_setTxok]
  rw [slotState_of_armed hused, if_neg (by rw [hunsent]; decide), slotState_of_armed (by rw [hself, hused]), if_pos hsent]
  exact .transmit hτ

/-- Every effect of a turn moves a slot at most once, and that by the agent of the move; the initialisation, which clears
the pool, does not run a second time. -/
theorem SeqInv.slotMove (h : SeqInv s) (hinit : s.initialised = true) (hr : τ ≠ .reset) (he : Effect p τ s t) (q : Slot) :
    SlotMove q τ (s.slotState q) (t.slotState q) := by
  cases he with
  | hold | gie | stage | setseq | setdcnt | send => exact .stay _
  | refused => exact .of_eq (slotState_congr (by simp) (by simp))
  | reclaim a hτ hc =>
    by_cases hq : q = a
    · subst hq
      exact h.release_move hc (hτ.imp_left And.left)
    · exact .of_eq (slotState_congr (mobAt_mobSet_ne _ hq) rfl)
  | transmit a hτ he =>
    by_cases hq : q = a
    · subst hq
      exact transmit_move he hτ
    · exact .of_eq (slotState_congr (mobAt_mobSet_ne _ hq) rfl)
  | micro hτ hb =>
    subst hτ
    exact (fgMicro_step h hb).slotMove h q
  | init _ _ hn => exact absurd (hinit.symm.trans hn) (by decide)
  | reset _ hτ => exact absurd hτ hr

/-! ## The obligation -/

/-- Settles O47: the effect of the turn is one of the moves of R199, and each names its agent. -/
theorem slotsFollowTheLifeCycle : Obligations.SlotsFollowTheLifeCycle := by
  intro s t q h hinit hr hs _
  obtain ⟨n, o, he⟩ := stepWith_effect hs
  have hmove : SlotMove q (nextTurn Config.params s) (s.slotState q) (t.slotState q) :=
    (h.rebooked s.fault o n s.turns.tail (s.ticks + 1)).slotMove hinit hr he q
  exact ⟨hmove.along_lifeCycle, hmove.made_by_mover⟩

end Sys2Proof.Machine
end

section
/-! PROOFS. Faults and interrupts (60_exceptions R213, R218): a standing fault record is kept by every effect of a turn but a
reset, from every state, and after a launch the interrupt that IRQ serves is one that reaches the CPU. -/

namespace Sys2Proof.Machine

variable {p : Params} {s t : State} {q : Slot} {r : FaultRecord} {τ : Turn}

/-! ## A record that stands (R213) -/

theorem raise_keeps_fault (h : s.fault = some r) (c : Fault) (port : Port) (w : Word) :
    (s.raise c port w).fault = some r := by
  rw [raise_of_some h, h]

theorem raiseFg_keeps_fault (h : s.fault = some r) (c : Fault) : (s.raiseFg c).fault = some r :=
  raise_keeps_fault h c .fg s.sendWord

/-! ## Register accesses write no record (R73-R78) -/

theorem pagedWrite_fault {f : Mailbox → Mailbox} (h : s.pagedWrite f = some t) : t.fault = s.fault := by
  obtain ⟨-, ⟨⟩⟩ := Option.ite_none_left_eq_some.mp h
  exact updMob_fault ..

theorem pagedRead_fault {f : Mailbox → Byte} {v : Byte} (h : s.pagedRead f = some (v, t)) : t.fault = s.fault := by
  obtain ⟨-, ⟨⟩⟩ := Option.ite_none_left_eq_some.mp h
  rfl

theorem regWrite_fault {v : Byte} {name : RegName} (h : s.regWrite v name = some t) : t.fault = s.fault := by
  cases name with
  | canpage | canie1 => cases h; rfl
  | canstmob | cancdmob | canidt1 | canidt2 | canidt3 | canidt4 => exact pagedWrite_fault h
  | canmsg =>
    obtain ⟨u, hu, rfl⟩ := Option.map_eq_some_iff.mp h
    exact (afterMsg_fault u).trans (pagedWrite_fault hu)

theorem regRead_fault {v : Byte} {name : RegName} (h : s.regRead name = some (v, t)) : t.fault = s.fault := by
  cases name with
  | canpage | canie1 => cases h; rfl
  | canstmob | cancdmob | canidt1 | canidt2 | canidt3 | canidt4 => exact pagedRead_fault h
  | canmsg =>
    obtain ⟨⟨_, u⟩, hu, ⟨⟩⟩ := Option.map_eq_some_iff.mp h
    exact (afterMsg_fault u).trans (pagedRead_fault hu)

/-! ## The micro-steps -/

theorem writeThen_keeps_fault (h : s.fault = some r) (name : RegName) (v : Byte) (n : Phase) :
    (s.writeThen name v n).fault = some r := by
  unfold State.writeThen
  split
  · next t ht => exact (regWrite_fault ht).trans h
  · exact raiseFg_keeps_fault h _

theorem readThen_keeps_fault (h : s.fault = some r) (name : RegName) {k : Byte → State → State}
    (hk : ∀ v t, t.fault = some r → (k v t).fault = some r) : (s.readThen name k).fault = some r := by
  unfold State.readThen
  split
  · next v t ht => exact hk v t ((regRead_fault ht).trans h)
  · exact raiseFg_keeps_fault h _

theorem fgPoll_keeps_fault (h : s.fault = some r) : (fgPoll s).fault = some r := by
  unfold fgPoll
  split <;> exact h

theorem fgScanTest_keeps_fault (h : s.fault = some r) : (fgScanTest s).fault = some r := by
  refine readThen_keeps_fault h _ fun v t ht => ?_
  split
  · exact ht
  · split
    · exact ht
    · exact raiseFg_keeps_fault ht _

theorem fgClaim_keeps_fault (h : s.fault = some r) : (fgClaim s).fault = some r := by
  unfold fgClaim
  split
  · exact raiseFg_keeps_fault h _
  · exact h

theorem fgArm_keeps_fault (h : s.fault = some r) : (fgArm s).fault = some r := by
  unfold fgArm
  split
  · next t ht => exact (regWrite_fault ht).trans h
  · exact raiseFg_keeps_fault h _

/-- No micro-step replaces a record that stands, whatever the state: those that write none leave it, and those that raise a
fault find one there. -/
theorem fgMicro_keeps_fault (h : s.fault = some r) : (fgMicro p s).fault = some r := by
  cases hp : s.phase with simp only [fgMicro, hp]
  | idle | done => exact h
  | poll => exact fgPoll_keeps_fault h
  | scanTest => exact fgScanTest_keeps_fault h
  | clrRead | enieRead => exact readThen_keeps_fault h _ fun _ _ ht => ht
  | claim => exact fgClaim_keeps_fault h
  | scanPage | clrWrite | page | wrid1 | wrid2 | wrid3 | wrid4 | wrhdr _ | wrpay _ | enieWrite =>
    exact writeThen_keeps_fault h _ _ _
  | arm => exact fgArm_keeps_fault h

/-- Every effect of a turn but a reset keeps a record that stands. -/
theorem Effect.keeps_fault (he : Effect p τ s t) (hr : τ ≠ .reset) (h : s.fault = some r) : t.fault = some r := by
  cases he with
  | hold | gie | stage | setseq | setdcnt | send | reclaim | transmit | init => exact h
  | refused c port w => exact raise_keeps_fault h c port w
  | micro => exact fgMicro_keeps_fault h
  | reset _ hτ => exact absurd hτ hr

/-! ## The interrupt that reaches the CPU (R192, R218) -/

/-- With the controller-level enables on, IRQ may serve exactly the slots whose interrupt reaches the CPU. -/
theorem irqEnabled_iff_routed (h : ControllerReady s) :
    s.irqEnabled q = true ↔ s.gie = true ∧ inPool q = true ∧ s.routed q = true := by
  rw [routed_of_ready h, State.irqEnabled, Bool.and_eq_true, Bool.and_eq_true, and_assoc]

/-! ## The obligations -/

/-- Settles O20: `raise` asks whether a record stands, and each effect of a turn but a reset keeps one that does. -/
theorem firstFaultIsKept : Obligations.FirstFaultIsKept := by
  refine ⟨fun s c port w => ⟨fun hnone => raise_of_none hnone c port w, fun hset => ?_⟩, fun s t r hfault hturn hs => ?_⟩
  · obtain ⟨r, hr⟩ := Option.ne_none_iff_exists'.mp hset
    exact raise_of_some hr c port w
  · obtain ⟨_, _, he⟩ := stepWith_effect hs
    exact he.keeps_fault hturn hfault

/-- Settles O60: the launch invariant keeps the controller-level enables on. -/
theorem irqServesTheRoutedInterrupt : Obligations.IrqServesTheRoutedInterrupt := fun _ _ hinv hturn =>
  ⟨fun h => step_of_irq_enabled hturn ((irqEnabled_iff_routed hinv.ready).mpr h),
    fun h => step_of_irq_disabled hturn fun he => h ((irqEnabled_iff_routed hinv.ready).mp he)⟩

end Sys2Proof.Machine
end

section
/-! PROOFS. Reset, the external initialisation and the launch (70_reset_and_hazards R250-R255): the fixed values after a
reset, INIT_CLEAN after the initialisation, and the invariants that start there. -/

namespace Sys2Proof.Machine

variable {s : State}

/-! ## Reset (R250, R251) -/

/-- A reset fixes the values of R250 and R251 whatever it leaves in the others. -/
theorem resetFrom_isReset (s : State) (d : ResetDraw) : IsReset (s.resetFrom d) where
  counter := rfl
  phase := rfl
  claimed := rfl
  seq := rfl
  dcnt := rfl
  pay := unwritten_w d.pay
  fault := rfl
  gie := rfl
  bus := rfl
  canpage := rfl
  canie1 := rfl
  canie2 := rfl

/-- The named state after a reset is a reset's, with the named values of log 5, 6 and 7. -/
theorem isReset_reset : IsReset State.reset := resetFrom_isReset State.reset ResetDraw.named

/-! ## The external initialisation (R254, R255) -/

/-- R255: the initialisation runs once after a reset, while FG is in IDLE (log 20). -/
theorem step_of_init (hturn : nextTurn Config.params s = .init) (hinit : s.initialised = false) (hidle : s.phase = .idle) :
    step s = .next (s.pop.initWith (Config.params.initDraw s.pop.ticks)) :=
  (step_of_nextTurn hturn).trans (if_pos ⟨hinit, hidle⟩)

/-- The initialisation leaves a pool mailbox disabled with its status clear, whatever its other registers hold. -/
theorem initWith_mob (d : InitDraw) {q : Slot} (hq : inPool q = true) :
    (s.initWith d).mob q = clearedMob (mobAt d.mobs q) := by
  rw [mob_eq, initWith_mobs, mobAt_clearPool, if_pos hq]

/-- R255: from the fixed reset values the initialisation gives INIT_CLEAN. -/
theorem IsReset.initClean (h : IsReset s) (d : InitDraw) : InitClean (s.pop.initWith d) where
  disabled q hq := by rw [initWith_mob d hq, clearedMob, conmob_zero]
  txokClear q hq := by rw [initWith_mob d hq, clearedMob, txok_zero]
  counter := h.counter
  claimed := h.claimed
  phase := h.phase
  fault := h.fault
  bus := h.bus
  ready := initWith_ready s.pop d

/-! ## The obligations -/

/-- Settles O5: every reset, that of `State.reset` among them, is a `resetFrom`. -/
theorem resetGivesTheFixedValues : Obligations.ResetGivesTheFixedValues :=
  ⟨isReset_reset, fun _ hturn => ⟨_, step_of_nextTurn hturn, resetFrom_isReset _ _⟩⟩

/-- Settles O6: the fixed reset values meet the invariant. -/
theorem resetMeetsSequencerInvariant : Obligations.ResetMeetsSequencerInvariant := isReset_reset.seqInv

/-- Settles O7: the turn is the initialisation, which writes CANIE1 with its reserved bit clear. -/
theorem initialisationGivesInitClean : Obligations.InitialisationGivesInitClean := fun _ h hinit hturn =>
  ⟨_, step_of_init hturn hinit h.phase, h.initClean _, reserved_and _⟩

/-- Settles O8: in INIT_CLEAN FG is idle, every pool slot is Idle and the bus is empty. -/
theorem initCleanGivesLaunchInvariant : Obligations.InitCleanGivesLaunchInvariant := fun p _ h hreserved =>
  h.launchInv p hreserved

end Sys2Proof.Machine
end

section
/-! PROOFS. The hazards (70_reset_and_hazards R258-R265): who moves the counter, who touches an armed slot, what stays during
a SEND, the SEND that polls without interrupts, and the second RECLAIM of one completion. -/

namespace Sys2Proof.Machine

variable {p : Params} {s t : State} {q : Slot} {τ : Turn}

/-! ## The counter (R263) -/

theorem regWrite_freeCount {v : Byte} {name : RegName} (h : s.regWrite v name = some t) : t.freeCount = s.freeCount := by
  cases name with
  | canpage | canie1 => cases h; rfl
  | canstmob | cancdmob | canidt1 | canidt2 | canidt3 | canidt4 =>
    obtain ⟨-, ⟨⟩⟩ := Option.ite_none_left_eq_some.mp h
    rfl
  | canmsg =>
    obtain ⟨u, hu, rfl⟩ := Option.map_eq_some_iff.mp h
    obtain ⟨-, ⟨⟩⟩ := Option.ite_none_left_eq_some.mp hu
    rfl

theorem regRead_freeCount {v : Byte} {name : RegName} (h : s.regRead name = some (v, t)) : t.freeCount = s.freeCount := by
  cases name with
  | canpage | canie1 => cases h; rfl
  | canstmob | cancdmob | canidt1 | canidt2 | canidt3 | canidt4 =>
    obtain ⟨-, ⟨⟩⟩ := Option.ite_none_left_eq_some.mp h
    rfl
  | canmsg =>
    obtain ⟨⟨_, u⟩, hu, ⟨⟩⟩ := Option.map_eq_some_iff.mp h
    obtain ⟨-, ⟨⟩⟩ := Option.ite_none_left_eq_some.mp hu
    rfl

theorem writeThen_freeCount (name : RegName) (v : Byte) (n : Phase) : (s.writeThen name v n).freeCount = s.freeCount := by
  unfold State.writeThen
  split
  · next t ht => exact regWrite_freeCount (t := t) ht
  · exact raiseFg_freeCount s _

theorem readThen_freeCount (name : RegName) {k : Byte → State → State}
    (hk : ∀ v t, (k v t).freeCount = t.freeCount) : (s.readThen name k).freeCount = s.freeCount := by
  unfold State.readThen
  split
  · next v t ht => exact (hk v t).trans (regRead_freeCount ht)
  · exact raiseFg_freeCount s _

theorem fgPoll_freeCount : (fgPoll s).freeCount = s.freeCount := by
  unfold fgPoll
  split <;> rfl

theorem fgScanTest_freeCount : (fgScanTest s).freeCount = s.freeCount := by
  refine readThen_freeCount _ fun v t => ?_
  split
  · rfl
  · split
    · rfl
    · exact raiseFg_freeCount t _

theorem fgArm_freeCount : (fgArm s).freeCount = s.freeCount := by
  unfold fgArm
  split
  · next t ht => exact regWrite_freeCount (t := t) ht
  · exact raiseFg_freeCount s _

/-- CLAIM writes the counter, and the mark with it, unless the counter is 0 (R159). -/
theorem fgClaim_freeCount : (fgClaim s).freeCount = s.freeCount ∨
    (s.freeCount ≠ 0#8 ∧ (fgClaim s).freeCount = s.freeCount - 1#8 ∧ (fgClaim s).claimed = some s.slot) := by
  by_cases hz : s.freeCount = 0#8
  · left
    rw [fgClaim_zero hz, goto_freeCount, raiseFg_freeCount]
  · right
    rw [fgClaim_pos hz]
    exact ⟨hz, rfl, rfl⟩

/-- No micro-step but CLAIM writes the counter, whatever the state. -/
theorem fgMicro_freeCount : (fgMicro p s).freeCount = s.freeCount ∨
    (s.phase = .claim ∧ s.freeCount ≠ 0#8 ∧ (fgMicro p s).freeCount = s.freeCount - 1#8 ∧
      (fgMicro p s).claimed = some s.slot) := by
  cases hp : s.phase with simp only [fgMicro, hp, true_and, reduceCtorEq, false_and, or_false]
  | claim => exact fgClaim_freeCount
  | poll => exact fgPoll_freeCount
  | scanTest => exact fgScanTest_freeCount
  | clrRead | enieRead => exact readThen_freeCount _ fun _ _ => rfl
  | scanPage | clrWrite | page | wrid1 | wrid2 | wrid3 | wrid4 | wrhdr _ | wrpay _ | enieWrite =>
    exact writeThen_freeCount _ _ _
  | arm => exact fgArm_freeCount
  | done => exact goto_freeCount s .idle

/-- Settles O46: of the effects of a turn only RECLAIM's and, in CLAIM, FG's write the counter. -/
theorem onlyClaimAndReclaimMoveTheCounter : Obligations.OnlyClaimAndReclaimMoveTheCounter := by
  intro s t hr hs
  obtain ⟨n, o, he⟩ := stepWith_effect hs
  cases he with
  | hold | gie | stage | setseq | setdcnt | send | transmit | init => exact .inl rfl
  | refused => exact .inl (raise_freeCount ..)
  | micro hturn => exact fgMicro_freeCount.imp_right fun h => .inl ⟨hturn, h⟩
  | reclaim q hturn hc =>
    obtain ⟨hin, -, -, hcount⟩ := reclaimCheck_eq_none.mp hc
    have hself := mobAt_mobSet_self (v := s.mobs) { s.mob q with cdmob := 0x00#8, stmob := 0x00#8 } (inPool_ne_absent hin)
    exact .inr (.inr ⟨q, ⟨hturn, hc⟩, hcount, rfl, congrArg Mailbox.cdmob hself, congrArg Mailbox.stmob hself⟩)
  | reset _ hturn => exact absurd hturn hr

/-! ## An armed slot (R258) -/

/-- The slot FG has found is disabled until ARM, so no micro-step writes a slot in use. -/
theorem MicroStep.mob_of_used (hm : MicroStep p s t) (h : SeqInv s) (hused : conmob (s.mob q).cdmob ≠ 0b00#2) :
    t.mob q = s.mob q := by
  have hwrite (hf : s.phase.found = true) (x : Mailbox) : mobAt (mobSet s.mobs s.slot x) q = s.mob q := by
    refine mobAt_mobSet_ne x ?_
    rintro rfl
    exact hused (h.foundFree hf)
  cases hm with
  | spin | start | scanPage | found | skip | clrRead | claim | page | enieRead | enieWrite | done => rfl
  | exhausted => simp
  | clrWrite hp | arm hp => exact hwrite (by rw [hp]; rfl) _
  | idt f n hw =>
    obtain ⟨⟨howned, -, -⟩, -, -⟩ := hw.spec
    exact hwrite (Phase.found_of_owned howned) _
  | data j n hw =>
    obtain ⟨⟨howned, -, -⟩, -⟩ := hw.spec (h.lenLe (MicroStep.data (p := p) j n hw).busy)
    exact hwrite (Phase.found_of_owned howned) _

/-- What a step but a reset can do to the registers of an armed slot: CTRL sets TXOK, an accepted RECLAIM idles it. -/
theorem stepWith_mob_of_armed (h : SeqInv s) (hinit : s.initialised = true) (hr : nextTurn p s ≠ .reset)
    (hs : stepWith p s = .next t) (harmed : conmob (s.mob q).cdmob = 0b01#2) :
    t.mob q = s.mob q ∨
    (nextTurn p s = .ctrl q ∧ t.mob q = { s.mob q with stmob := setTxok (s.mob q).stmob }) ∨
    (Reclaims p s q ∧ t.freeCount = s.freeCount + 1#8 ∧
      t.mob q = { s.mob q with cdmob := 0x00#8, stmob := 0x00#8 }) := by
  obtain ⟨n, o, he⟩ := stepWith_effect hs
  cases he with
  | hold | gie | stage | setseq | setdcnt | send => exact .inl rfl
  | refused => left; simp
  | micro _ hb =>
    have hseq := h.rebooked s.fault o n s.turns.tail (s.ticks + 1)
    exact .inl ((fgMicro_step hseq hb).mob_of_used hseq (by simp [harmed]))
  | transmit a hturn he =>
    by_cases hq : q = a
    · subst hq
      exact .inr (.inl ⟨hturn, mobAt_mobSet_self _ (inPool_ne_absent (txEnabled_spec he).1)⟩)
    · exact .inl (mobAt_mobSet_ne _ hq)
  | reclaim a hturn hc =>
    by_cases hq : q = a
    · subst hq
      exact .inr (.inr ⟨⟨hturn, hc⟩, rfl, mobAt_mobSet_self _ (inPool_ne_absent (reclaimCheck_eq_none.mp hc).1)⟩)
    · exact .inl (mobAt_mobSet_ne _ hq)
  | init _ _ hn => exact absurd (hinit.symm.trans hn) (by decide)
  | reset _ hturn => exact absurd hturn hr

/-- Settles O48: FG writes no slot in use, and the other agents write a slot in their own turn for it. -/
theorem armedSlotIsNotTouched : Obligations.ArmedSlotIsNotTouched := fun _ _ _ h hinit hr hs _ harmed =>
  stepWith_mob_of_armed h hinit hr hs harmed

/-! ## A SEND in progress (R260, R261) -/

/-- While FG is busy no effect but a reset writes the staging registers, the latched operands or `gie`: the commands and the
write of `gie` ask for IDLE, and a micro-step writes none of them. -/
theorem Effect.staging_of_busy (he : Effect p τ s t) (hb : s.phase ≠ .idle) (hr : τ ≠ .reset) :
    t.seq = s.seq ∧ t.dcnt = s.dcnt ∧ t.pay = s.pay ∧ t.ty = s.ty ∧ t.len = s.len ∧ t.gie = s.gie := by
  cases he with
  | hold | reclaim | transmit => simp
  | refused => simp
  | gie _ hi | stage _ _ hi | setseq _ hi | setdcnt _ hi | send _ _ hi | init _ _ _ hi => exact absurd hi hb
  | micro =>
    have hout := fgMicro_sameOutside p s
    exact ⟨hout.seq, hout.dcnt, hout.pay, hout.ty, hout.len, hout.gie⟩
  | reset _ hτ => exact absurd hτ hr

/-- Settles O49: what is staged, latched or enabled stays under every effect while FG is busy. -/
theorem stagingIsStableDuringASend : Obligations.StagingIsStableDuringASend := by
  intro s t hb hr hs
  obtain ⟨_, _, he⟩ := stepWith_effect hs
  exact he.staging_of_busy hb hr

/-- FG polls a counter that is zero (R151). -/
def State.Starved (s : State) : Prop := s.phase = .poll ∧ s.freeCount = 0#8

/-- Only an accepted RECLAIM ends the spin on a zero counter. -/
theorem Effect.starved_of_starved (he : Effect p τ s t) (h : s.Starved) (hr : τ ≠ .reset)
    (hc : ∀ q, (τ = .irq q ∧ s.irqEnabled q = true) ∨ (∃ w, τ = .irqPort w ∧ decode .irq w = .cmd (.reclaim q)) →
      s.reclaimCheck q ≠ none) : t.Starved := by
  obtain ⟨hp, hz⟩ := h
  cases he with
  | hold | transmit => exact ⟨hp, hz⟩
  | refused => simp [State.Starved, hp, hz]
  | gie _ hi | stage _ _ hi | setseq _ hi | setdcnt _ hi | send _ _ hi | init _ _ _ hi => simp [hp] at hi
  | reclaim q hτ hcheck => exact absurd hcheck (hc q hτ)
  | micro => rw [fgMicro_poll hp, fgPoll_zero hz]; exact ⟨hp, hz⟩
  | reset _ hτ => exact absurd hτ hr

/-- Settles O53: with `gie` = 0 the IRQ agent has no step, so nothing but a word on the IRQ port could feed the SEND. -/
theorem pollHangsWithoutInterrupts : Obligations.PollHangsWithoutInterrupts := by
  intro s t hp hz hgie hport hr hs
  obtain ⟨n, o, he⟩ := stepWith_effect hs
  obtain ⟨-, -, -, -, -, hkept⟩ := he.staging_of_busy (by simp [hp]) hr
  have hmasked (q : Slot) : (s.pop.kept n o).irqEnabled q = false := by simp [State.irqEnabled, hgie]
  obtain ⟨hpoll, hzero⟩ : t.Starved := by
    refine he.starved_of_starved ⟨hp, hz⟩ hr ?_
    rintro q (⟨-, henabled⟩ | ⟨w, hw, -⟩)
    · simp [hmasked q] at henabled
    · exact absurd hw (hport w)
  exact ⟨hpoll, hzero, hkept.trans hgie⟩

/-! ## A second RECLAIM (R265) -/

/-- R265: the slot a RECLAIM has released is no longer in use, so R191 refuses it. -/
theorem release_reclaimCheck (hin : inPool q = true) : (s.release q).reclaimCheck q = some .errSlot := by
  refine reclaimCheck_of_not_completed hin (.inl ?_)
  have hself : (s.release q).mob q = { s.mob q with cdmob := 0x00#8, stmob := 0x00#8 } :=
    mobAt_mobSet_self _ (inPool_ne_absent hin)
  rw [hself, conmob_zero]
  decide

/-- Settles O15: the first RECLAIM releases the slot, and the check refuses the second. -/
theorem secondReclaimIsRefused : Obligations.SecondReclaimIsRefused := fun _ _ hc =>
  ⟨_, exec_reclaim_accepted hc, exec_reclaim_refused (release_reclaimCheck (reclaimCheck_eq_none.mp hc).1)⟩

end Sys2Proof.Machine
end

section
/-! PROOFS. A SEND comes to an end (70_reset_and_hazards R268, R269). Once POLL has let go, each micro-step lowers the number
of those left and no other turn raises it; and in a launched run with `gie` = 1 the counter does not stay at 0, since a
completed slot would stay pending for ever. -/

namespace Sys2Proof.Machine

variable {p : Params} {s t : State} {q : Slot} {τ : Turn}

/-! ## The micro-steps left (R175, R269) -/

/-- WRID1 to WRID4 are one micro-step each. -/
theorem IdtWrite.stepsLeft_lt {f : Mailbox → Mailbox} (hw : IdtWrite p s.phase f t.phase) (hl : t.len = s.len) :
    t.stepsLeft < s.stepsLeft := by
  generalize hp : s.phase = ph, hn : t.phase = n at hw
  cases hw with
  | first | second | third | fourth => simp [State.stepsLeft, hp, hn, hl]

/-- WRHDR(k) and WRPAY(k) are one micro-step each, and the last of them leaves the four of the interrupt enable, ARM and
DONE. -/
theorem DataWrite.stepsLeft_lt {j : Fin 8} (hw : DataWrite s.len s.phase j t.phase) (hl : t.len = s.len) :
    t.stepsLeft < s.stepsLeft := by
  generalize hp : s.phase = ph, hn : t.phase = n at hw
  cases hw with
  | hdr k =>
    by_cases hk : k.val < 3
    · rw [afterHdr_lt hk] at hn
      simp only [State.stepsLeft, hp, hn, hl]
      omega
    · have hk : k.val = 3 := by omega
      by_cases hz : s.len = 0#3
      · rw [hz, afterHdr_last_empty hk] at hn
        simp only [State.stepsLeft, hp, hn]
        omega
      · rw [afterHdr_last hk hz] at hn
        simp [State.stepsLeft, hp, hn, hk, hl]
  | pay k hk =>
    by_cases hnext : k.val + 1 < s.len.toNat ∧ k.val + 1 < 4
    · rw [afterPay_next hnext.1 hnext.2] at hn
      simp only [State.stepsLeft, hp, hn, hl]
      omega
    · rw [afterPay, dif_neg hnext] at hn
      simp only [State.stepsLeft, hp, hn]
      omega

/-- A fed SEND's micro-step brings IDLE nearer. -/
theorem MicroStep.stepsLeft_lt (hm : MicroStep p s t) (h : SeqInv s) (hfed : ¬ s.Starved) : t.stepsLeft < s.stepsLeft := by
  have hlen := h.lenLe hm.busy
  cases hm with
  | spin hp hz => exact absurd ⟨hp, hz⟩ hfed
  | start hp =>
    simp [State.stepsLeft, hp]
    omega
  | skip hp hc hs =>
    have hnext : (s.slot + 1#4).toNat = s.slot.toNat + 1 := by bv_omega
    simp only [State.stepsLeft, hp, hnext]
    omega
  | idt f n hw => exact hw.stepsLeft_lt (t := (s.updMob s.slot f).goto n) rfl
  | data j n hw =>
    exact hw.stepsLeft_lt
      (t := (s.updMob s.slot fun x => setMsg x (indx s.canpage) (frameByte p s j)).afterMsg.goto n) rfl
  | scanPage hp | found hp | exhausted hp | clrRead hp | clrWrite hp | claim hp | page hp | enieRead hp | enieWrite hp
  | arm hp | done hp => simp [State.stepsLeft, hp]

theorem stepsLeft_of_poll (hp : s.phase = .poll) : s.stepsLeft = 35 := by
  rw [State.stepsLeft, hp]

/-- R175: the longest way is a scan from slot 8 to slot 14 and a frame of four payload bytes. -/
theorem SeqInv.stepsLeft_le (h : SeqInv s) (hb : s.phase ≠ .idle) (hp : s.phase ≠ .poll) : s.stepsLeft ≤ 34 := by
  have hlen := h.lenLe hb
  have hslot := inPool_iff.mp (h.slotInPool hb hp)
  cases hph : s.phase with simp only [State.stepsLeft, hph]
  | idle => exact absurd hph hb
  | poll => exact absurd hph hp
  | _ => omega

/-- Settles O57: the micro-step is one of the cases of `MicroStep`, and none of them is POLL's spin. -/
theorem atMostThirtyFourMicroSteps : Obligations.AtMostThirtyFourMicroSteps := fun _ _ h hb hp =>
  ⟨(fgMicro_step h hb).stepsLeft_lt h fun hstarved => hp hstarved.1, h.stepsLeft_le hb hp⟩

/-! ## Every turn during a SEND -/

/-- A fed SEND stays fed, since no micro-step returns to POLL and only CLAIM lowers the counter; and no turn adds to the
micro-steps it has left. -/
theorem Effect.fed_of_busy (he : Effect p τ s t) (h : SeqInv s) (hb : s.phase ≠ .idle) (hr : τ ≠ .reset)
    (hfed : ¬ s.Starved) : ¬ t.Starved ∧ t.stepsLeft ≤ s.stepsLeft := by
  cases he with
  | hold | transmit => exact ⟨hfed, le_rfl⟩
  | refused => simpa [State.Starved, State.stepsLeft] using hfed
  | gie _ hi | stage _ _ hi | setseq _ hi | setdcnt _ hi | send _ _ hi | init _ _ _ hi => exact absurd hi hb
  | reclaim q _ hc =>
    have hle := h.counterLe
    refine ⟨fun ⟨_, hz⟩ => ?_, le_rfl⟩
    rw [release_freeCount] at hz
    bv_omega
  | micro =>
    have hlt := (fgMicro_step (p := p) h hb).stepsLeft_lt h hfed
    refine ⟨fun ⟨hpoll, _⟩ => ?_, hlt.le⟩
    have hpoll := stepsLeft_of_poll hpoll
    have hle : s.stepsLeft ≤ 35 := by
      by_cases hp : s.phase = .poll
      · exact (stepsLeft_of_poll hp).le
      · exact (h.stepsLeft_le hb hp).trans (by decide)
    omega
  | reset _ hτ => exact absurd hτ hr

theorem stepWith_fed (h : SeqInv s) (hb : s.phase ≠ .idle) (hr : nextTurn p s ≠ .reset) (hs : stepWith p s = .next t)
    (hfed : ¬ s.Starved) : ¬ t.Starved ∧ t.stepsLeft ≤ s.stepsLeft := by
  obtain ⟨n, o, he⟩ := stepWith_effect hs
  exact he.fed_of_busy (h.rebooked s.fault o n s.turns.tail (s.ticks + 1)) hb hr hfed

/-- FG's turn in a fed SEND brings IDLE nearer. -/
theorem stepWith_fg_stepsLeft (h : SeqInv s) (hb : s.phase ≠ .idle) (hturn : nextTurn p s = .fg)
    (hs : stepWith p s = .next t) (hfed : ¬ s.Starved) : t.stepsLeft < s.stepsLeft := by
  have hstep : stepWith p s = .next (fgMicro p s.begun) := by
    rw [stepWith, hturn]
    exact fgTurn_busy hb
  cases hstep.symm.trans hs
  have hseq : SeqInv s.begun := h.rebooked s.fault s.held (s.steps + 1) s.turns.tail (s.ticks + 1)
  exact (fgMicro_step hseq hb).stepsLeft_lt hseq hfed

/-! ## Slots while the counter is 0 -/

/-- R46: while FG polls a zero counter, every pool slot is in use, and armed by the block. -/
theorem LaunchInv.used_of_starved (h : LaunchInv p s) (hs : s.Starved) (hq : inPool q = true) :
    conmob (s.mob q).cdmob = 0b01#2 := by
  obtain ⟨hp, hz⟩ := hs
  rcases slotState_ne_foreign.mp (h.noForeign q hq) with hfree | hused
  · have hnone := h.seq.claimed_none (by rw [hp]; rfl)
    have hidle : (s.slotState q == .idle) = true := beq_iff_eq.mpr (slotState_eq_idle.mpr ⟨hfree, by simp [hnone]⟩)
    have hcount : s.idleCount = 0 := by rw [← h.counter, hz]; rfl
    exact absurd hidle (List.countP_eq_zero.mp hcount q (mem_poolSlots.mpr hq))
  · exact hused

/-- A slot that is sent stays so until a RECLAIM, which would end the starving. -/
theorem LaunchInv.sent_of_starved (h : LaunchInv p s) (hs : s.Starved) (ht : t.Starved) (hr : nextTurn p s ≠ .reset)
    (hstep : stepWith p s = .next t) (hq : inPool q = true) (hsent : txok (s.mob q).stmob = true) :
    txok (t.mob q).stmob = true := by
  rcases stepWith_mob_of_armed h.seq h.ready.initialised hr hstep (h.used_of_starved hs hq) with
    hsame | ⟨-, hset⟩ | ⟨-, hcount, -⟩
  · rw [hsame, hsent]
  · rw [hset, txok_setTxok]
  · rw [ht.2, hs.2] at hcount
    exact absurd hcount (by decide)

/-! ## Runs -/

section Runs
variable {r : Nat → State} {n : Nat} (hrun : IsRun p r) (hreset : ∀ m, nextTurn p (r m) ≠ .reset)
  (hinv : ∀ m, LaunchInv p (r m)) (hbusy : ∀ m, n ≤ m → (r m).phase ≠ .idle)

include hrun hreset hbusy in
/-- `gie` stays on while FG is busy (R260). -/
theorem gie_of_busy (hgie : (r n).gie = true) (m : Nat) (hm : n ≤ m) : (r m).gie = true := by
  induction m, hm using Nat.le_induction with
  | base => exact hgie
  | succ m hm ih =>
    obtain ⟨_, _, he⟩ := stepWith_effect (hrun m)
    obtain ⟨-, -, -, -, -, hkept⟩ := he.staging_of_busy (hbusy m hm) (hreset m)
    exact hkept.trans ih

include hrun hreset hinv hbusy in
/-- While FG is busy, a fed SEND is fed at every later point, with no more micro-steps left. -/
theorem fed_of_fed (hfed : ¬ (r n).Starved) (m : Nat) (hm : n ≤ m) :
    ¬ (r m).Starved ∧ (r m).stepsLeft ≤ (r n).stepsLeft := by
  induction m, hm using Nat.le_induction with
  | base => exact ⟨hfed, le_rfl⟩
  | succ m hm ih =>
    obtain ⟨hfed, hle⟩ := ih
    obtain ⟨hfed', hle'⟩ := stepWith_fed (hinv m).seq (hbusy m hm) (hreset m) (hrun m) hfed
    exact ⟨hfed', hle'.trans hle⟩

include hrun hreset hinv in
/-- A slot that is sent stays so while FG is starved. -/
theorem sent_of_sent (hstarved : ∀ m, n ≤ m → (r m).Starved) (hq : inPool q = true)
    (hsent : txok ((r n).mob q).stmob = true) (m : Nat) (hm : n ≤ m) : txok ((r m).mob q).stmob = true := by
  induction m, hm using Nat.le_induction with
  | base => exact hsent
  | succ m hm ih =>
    exact (hinv m).sent_of_starved (hstarved m hm) (hstarved (m + 1) (by omega)) (hreset m) (hrun m) hq ih

include hrun hreset hinv in
/-- R269: with `gie` = 1, FG is not starved for ever: a slot in use is transmitted, and would then stay pending for ever. -/
theorem exists_fed (hctrl : FairCtrl r) (hirq : FairIrq r) (hgie : ∀ m, n ≤ m → (r m).gie = true) :
    ∃ m, n ≤ m ∧ ¬ (r m).Starved := by
  by_contra! hstarved
  have hq : inPool 8#4 = true := rfl
  have hused (m : Nat) (hm : n ≤ m) := (hinv m).used_of_starved (hstarved m hm) hq
  obtain ⟨a, ha, hsent⟩ : ∃ a, n ≤ a ∧ txok ((r a).mob 8#4).stmob = true := by
    by_cases harmed : (r n).armed 8#4 = true
    · obtain ⟨a, ha, hnot⟩ := hctrl n 8#4 harmed
      exact ⟨a, ha, by simpa [State.armed, hq, hused a ha] using hnot⟩
    · exact ⟨n, le_rfl, by simpa [State.armed, hq, hused n le_rfl] using harmed⟩
  have hpending (m : Nat) (hm : a ≤ m) : (r m).pending 8#4 = true := by
    have hsent' := sent_of_sent hrun hreset hinv (fun k hk => hstarved k (ha.trans hk)) hq hsent m hm
    rw [State.pending, hsent', (hinv m).ie 8#4 hq (hused m (ha.trans hm))]
    rfl
  obtain ⟨b, hb, hnot⟩ := hirq a 8#4 hq (hpending a le_rfl) fun m hm => hgie m (ha.trans hm)
  exact absurd (hpending b hb) (by simp [hnot])

include hrun hreset hinv in
/-- R269: a fed SEND comes to IDLE: FG's turn comes again and again, and each lowers the number of micro-steps left. -/
theorem exists_idle_of_fed (hfg : FairFg p r) (n : Nat) (hfed : ¬ (r n).Starved) : ∃ m, n ≤ m ∧ (r m).phase = .idle := by
  induction hk : (r n).stepsLeft using Nat.strong_induction_on generalizing n with
  | _ k ih =>
    by_contra! hbusy
    obtain ⟨a, ha, hidle | hturn⟩ := hfg n
    · exact hbusy a ha hidle
    · obtain ⟨hfed_a, hle⟩ := fed_of_fed hrun hreset hinv hbusy hfed a ha
      have hlt := stepWith_fg_stepsLeft (hinv a).seq (hbusy a ha) hturn (hrun a) hfed_a
      obtain ⟨hfed_next, -⟩ := fed_of_fed hrun hreset hinv hbusy hfed (a + 1) (by omega)
      obtain ⟨m, hm, hidle⟩ := ih _ (by omega) (a + 1) hfed_next rfl
      exact hbusy m (by omega) hidle

end Runs

/-- Settles O58: a SEND that did not return would be fed at some time, and then return. -/
theorem sendReturnsUnderFairness : Obligations.SendReturnsUnderFairness := by
  intro p r n hrun h0 hreserved hreset hpctrl hpirq hfair hgie
  have hinv := hrun.launchInv hreset (h0.launchInv p hreserved)
  by_contra! hbusy
  obtain ⟨a, ha, hfed⟩ := exists_fed hrun hreset hinv (hfair.ctrl hpctrl) (hfair.irq hpirq)
    (gie_of_busy hrun hreset hbusy hgie)
  obtain ⟨m, hm, hidle⟩ := exists_idle_of_fed hrun hreset hinv hfair.fg a hfed
  exact hbusy m (ha.trans hm) hidle

end Sys2Proof.Machine
end
